-- ==== Sys2Proof/Word.lean ====
section
/-! DEFINITION. The bit-vector types of the block (spec/00_scope.md R10, R12): bytes of the command and response
streams, the 16-bit divisor, the 32-bit frequency operand and transfer sizes. Everything is unsigned; nothing here wraps. -/

namespace Sys2Proof

/-- A byte of a stream, of the queue buffer or of a pin register (R12). -/
abbrev Byte := BitVec 8

/-- The 16-bit clock divisor (R34, R85). -/
abbrev Divisor := BitVec 16

/-- A frequency operand in hertz, an unsigned 32-bit natural (R120). -/
abbrev Hertz := BitVec 32

/-- A transfer size of the transport, an unsigned 32-bit natural (R64). -/
abbrev Size32 := BitVec 32

end Sys2Proof
end

