-- ==== Sys2Proof/Syntax.lean ====
section
/-! DEFINITION. The syntax of both instruction levels (spec/00_scope.md R4): the 46 MPSSE commands of Level M
(30_encoding.md R93) and the 32 host operations of Level H (30_encoding.md R98), one constructor of `Instr` for each row
of spec/opcode_table.json. `MCmd` is a Level M command as the host writes it, the operand of MPSSE.EMIT (R99, R276): its
counts may still be out of range, which is what that operation checks. -/

namespace Sys2Proof

/-- The 16 states of the TAP controller, in the order of their codes (10_state.md R25). -/
inductive Tap
  | reset | idle | drSelect | drCapture | drShift | drExit1 | drPause | drExit2
  | drUpdate | irSelect | irCapture | irShift | irExit1 | irPause | irExit2 | irUpdate
  deriving DecidableEq, Repr, Inhabited

/-- The order in which the bits of a data byte travel (field `LSBF` of R82). -/
inductive BitOrder
  | msb | lsb
  deriving DecidableEq, Repr

/-- A clock edge: the one a pin changes on or is sampled on (fields `WNEG` and `RNEG` of R82). -/
inductive Edge
  | rising | falling
  deriving DecidableEq, Repr

/-- The eight variants of a shift that writes: `OUT.*` and `IO.*` (R93). The same eight exist byte-oriented and
bit-oriented. -/
inductive WriteOp
  | outWpMsb | outWnMsb | outWpLsb | outWnLsb
  | ioWnRpMsb | ioWpRnMsb | ioWnRpLsb | ioWpRnLsb
  deriving DecidableEq, Repr

/-- The four variants of a shift that only reads: `IN.*` (R93), byte-oriented and bit-oriented. -/
inductive ReadOp
  | rpMsb | rnMsb | rpLsb | rnLsb
  deriving DecidableEq, Repr

/-- The six TMS commands: `TMS.*` and `TMSR.*` (R93). -/
inductive TmsOp
  | wp | wn | wpRp | wnRp | wpRn | wnRn
  deriving DecidableEq, Repr

/-- The two pin-set commands (R93, format PSET). -/
inductive PsetOp
  | low | high
  deriving DecidableEq, Repr

/-- The twelve commands without operands (R93, format NOARG). -/
inductive NoargOp
  | getLow | getHigh | loopOn | loopOff | sendImm | div5Off | div5On | ph3On | ph3Off
  | adaptOn | adaptOff | bogus
  deriving DecidableEq, Repr

/-- What an opcode byte selects: its format (R81) and which of the format's commands it is. -/
inductive CmdKey
  | bytesW (o : WriteOp)
  | bytesR (o : ReadOp)
  | bitsW (o : WriteOp)
  | bitsR (o : ReadOp)
  | tms (o : TmsOp)
  | pset (o : PsetOp)
  | noarg (o : NoargOp)
  | setDiv
  | odCfg
  deriving DecidableEq, Repr

/-- A Level M command as the host names it to MPSSE.EMIT, in the operand forms of R99: byte count and data, bit count,
control-bit count, value and direction, divisor, masks. `unknown` is a mnemonic outside the set of R93, given by the
opcode byte it would have. -/
inductive MCmd
  | bytesW (o : WriteOp) (n : Nat) (d : List Byte)
  | bytesR (o : ReadOp) (n : Nat)
  | bitsW (o : WriteOp) (k : Nat) (d : Byte)
  | bitsR (o : ReadOp) (k : Nat)
  | tms (o : TmsOp) (m : Nat) (d : Byte)
  | pset (o : PsetOp) (val dir : Byte)
  | noarg (o : NoargOp)
  | setDiv (d : Nat)
  | odCfg (maskL maskH : Byte)
  | unknown (op : Byte)
  deriving DecidableEq, Repr

/-- The two instruction levels (R4): host operations, executed by the block, and MPSSE commands, executed by the
downstream engine. -/
inductive Level
  | h | m
  deriving DecidableEq, Repr

/-- One constructor per row of spec/opcode_table.json. Level M rows carry the command's operands (a byte shift that
writes carries its data, whose length is the byte count); Level H rows carry the operands of R98. -/
inductive Instr
  /-- `OUT.BYTES.WP.MSB`, opcode 0x10, format SBW (R223). -/
  | outBytesWpMsb (d : List Byte)
  /-- `OUT.BYTES.WN.MSB`, opcode 0x11, format SBW (R224). -/
  | outBytesWnMsb (d : List Byte)
  /-- `OUT.BYTES.WP.LSB`, opcode 0x18, format SBW (R225). -/
  | outBytesWpLsb (d : List Byte)
  /-- `OUT.BYTES.WN.LSB`, opcode 0x19, format SBW (R226). -/
  | outBytesWnLsb (d : List Byte)
  /-- `OUT.BITS.WP.MSB`, opcode 0x12, format SbW (R227). -/
  | outBitsWpMsb (k : Nat) (d : Byte)
  /-- `OUT.BITS.WN.MSB`, opcode 0x13, format SbW (R228). -/
  | outBitsWnMsb (k : Nat) (d : Byte)
  /-- `OUT.BITS.WP.LSB`, opcode 0x1A, format SbW (R229). -/
  | outBitsWpLsb (k : Nat) (d : Byte)
  /-- `OUT.BITS.WN.LSB`, opcode 0x1B, format SbW (R230). -/
  | outBitsWnLsb (k : Nat) (d : Byte)
  /-- `IN.BYTES.RP.MSB`, opcode 0x20, format SBR (R231). -/
  | inBytesRpMsb (n : Nat)
  /-- `IN.BYTES.RN.MSB`, opcode 0x24, format SBR (R232). -/
  | inBytesRnMsb (n : Nat)
  /-- `IN.BYTES.RP.LSB`, opcode 0x28, format SBR (R233). -/
  | inBytesRpLsb (n : Nat)
  /-- `IN.BYTES.RN.LSB`, opcode 0x2C, format SBR (R234). -/
  | inBytesRnLsb (n : Nat)
  /-- `IN.BITS.RP.MSB`, opcode 0x22, format SbR (R235). -/
  | inBitsRpMsb (k : Nat)
  /-- `IN.BITS.RN.MSB`, opcode 0x26, format SbR (R236). -/
  | inBitsRnMsb (k : Nat)
  /-- `IN.BITS.RP.LSB`, opcode 0x2A, format SbR (R237). -/
  | inBitsRpLsb (k : Nat)
  /-- `IN.BITS.RN.LSB`, opcode 0x2E, format SbR (R238). -/
  | inBitsRnLsb (k : Nat)
  /-- `IO.BYTES.WN_RP.MSB`, opcode 0x31, format SBW (R239). -/
  | ioBytesWnRpMsb (d : List Byte)
  /-- `IO.BYTES.WP_RN.MSB`, opcode 0x34, format SBW (R240). -/
  | ioBytesWpRnMsb (d : List Byte)
  /-- `IO.BYTES.WN_RP.LSB`, opcode 0x39, format SBW (R241). -/
  | ioBytesWnRpLsb (d : List Byte)
  /-- `IO.BYTES.WP_RN.LSB`, opcode 0x3C, format SBW (R242). -/
  | ioBytesWpRnLsb (d : List Byte)
  /-- `IO.BITS.WN_RP.MSB`, opcode 0x33, format SbW (R243). -/
  | ioBitsWnRpMsb (k : Nat) (d : Byte)
  /-- `IO.BITS.WP_RN.MSB`, opcode 0x36, format SbW (R244). -/
  | ioBitsWpRnMsb (k : Nat) (d : Byte)
  /-- `IO.BITS.WN_RP.LSB`, opcode 0x3B, format SbW (R245). -/
  | ioBitsWnRpLsb (k : Nat) (d : Byte)
  /-- `IO.BITS.WP_RN.LSB`, opcode 0x3E, format SbW (R246). -/
  | ioBitsWpRnLsb (k : Nat) (d : Byte)
  /-- `TMS.WP`, opcode 0x4A, format TMS (R247). -/
  | tmsWp (m : Nat) (d : Byte)
  /-- `TMS.WN`, opcode 0x4B, format TMS (R248). -/
  | tmsWn (m : Nat) (d : Byte)
  /-- `TMSR.WP_RP`, opcode 0x6A, format TMS (R249). -/
  | tmsrWpRp (m : Nat) (d : Byte)
  /-- `TMSR.WN_RP`, opcode 0x6B, format TMS (R250). -/
  | tmsrWnRp (m : Nat) (d : Byte)
  /-- `TMSR.WP_RN`, opcode 0x6E, format TMS (R251). -/
  | tmsrWpRn (m : Nat) (d : Byte)
  /-- `TMSR.WN_RN`, opcode 0x6F, format TMS (R252). -/
  | tmsrWnRn (m : Nat) (d : Byte)
  /-- `SET_LOW`, opcode 0x80, format PSET (R260). -/
  | setLow (val dir : Byte)
  /-- `GET_LOW`, opcode 0x81, format NOARG (R261). -/
  | getLow
  /-- `SET_HIGH`, opcode 0x82, format PSET (R262). -/
  | setHigh (val dir : Byte)
  /-- `GET_HIGH`, opcode 0x83, format NOARG (R263). -/
  | getHigh
  /-- `LOOP_ON`, opcode 0x84, format NOARG (R264). -/
  | loopOn
  /-- `LOOP_OFF`, opcode 0x85, format NOARG (R265). -/
  | loopOff
  /-- `SET_DIV`, opcode 0x86, format DIV (R266). -/
  | setDiv (d : Divisor)
  /-- `SEND_IMM`, opcode 0x87, format NOARG (R273). -/
  | sendImm
  /-- `DIV5_OFF`, opcode 0x8A, format NOARG (R267). -/
  | div5Off
  /-- `DIV5_ON`, opcode 0x8B, format NOARG (R268). -/
  | div5On
  /-- `PH3_ON`, opcode 0x8C, format NOARG (R269). -/
  | ph3On
  /-- `PH3_OFF`, opcode 0x8D, format NOARG (R270). -/
  | ph3Off
  /-- `ADAPT_ON`, opcode 0x96, format NOARG (R271). -/
  | adaptOn
  /-- `ADAPT_OFF`, opcode 0x97, format NOARG (R272). -/
  | adaptOff
  /-- `OD_CFG`, opcode 0x9E, format OD (R274). -/
  | odCfg (maskL maskH : Byte)
  /-- `BOGUS`, opcode 0xAA, format NOARG (R275). -/
  | bogus
  /-- `Q.ENQ`, OPSEL 0x00 (R110). -/
  | qEnq (b : Byte)
  /-- `Q.ENQS`, OPSEL 0x01 (R111). -/
  | qEnqs (bs : List Byte)
  /-- `Q.FLUSH`, OPSEL 0x02 (R112). -/
  | qFlush
  /-- `Q.READ`, OPSEL 0x03 (R113). -/
  | qRead (n : Nat)
  /-- `Q.COUNT`, OPSEL 0x04 (R114). -/
  | qCount
  /-- `CLK.CONFIGURE`, OPSEL 0x10 (R120). -/
  | clkConfigure (hz : Hertz)
  /-- `TAP.NEXT`, OPSEL 0x20 (R132). -/
  | tapNext (t : Tap) (b : Bool)
  /-- `TAP.PATH`, OPSEL 0x21 (R135). -/
  | tapPath (src dst : Tap)
  /-- `TAP.GOTO`, OPSEL 0x22 (R139). -/
  | tapGoto (dst : Tap)
  /-- `JTAG.RESET`, OPSEL 0x30 (R150). -/
  | jtagReset
  /-- `JTAG.SCAN_IR`, OPSEL 0x31 (R156). -/
  | jtagScanIr (n : Nat) (out : List Byte)
  /-- `JTAG.SCAN_DR`, OPSEL 0x32 (R157). -/
  | jtagScanDr (n : Nat) (out : List Byte)
  /-- `JTAG.SET_END_IR`, OPSEL 0x33 (R153). -/
  | jtagSetEndIr (t : Tap)
  /-- `JTAG.SET_END_DR`, OPSEL 0x34 (R154). -/
  | jtagSetEndDr (t : Tap)
  /-- `SPI.ASSERT`, OPSEL 0x40 (R166). -/
  | spiAssert
  /-- `SPI.CLEAR`, OPSEL 0x41 (R171). -/
  | spiClear
  /-- `SPI.TRANSACT`, OPSEL 0x42 (R168). -/
  | spiTransact (n : Nat) (out : List Byte)
  /-- `SPI.WRITE`, OPSEL 0x43 (R169). -/
  | spiWrite (n : Nat) (out : List Byte)
  /-- `SPI.READ`, OPSEL 0x44 (R170). -/
  | spiRead (n : Nat)
  /-- `I2C.START`, OPSEL 0x50 (R183). -/
  | i2cStart
  /-- `I2C.RSTART`, OPSEL 0x51 (R184). -/
  | i2cRstart
  /-- `I2C.STOP`, OPSEL 0x52 (R185). -/
  | i2cStop
  /-- `I2C.WRITE_BYTE`, OPSEL 0x53 (R186). -/
  | i2cWriteByte (v : Byte)
  /-- `I2C.READ_BYTE`, OPSEL 0x54 (R187). -/
  | i2cReadByte (ack : Bool)
  /-- `I2C.XREAD`, OPSEL 0x55 (R188). -/
  | i2cXread (addr : Byte) (count : Nat)
  /-- `I2C.XWRITE`, OPSEL 0x56 (R189). -/
  | i2cXwrite (addr : Byte) (data : List Byte)
  /-- `MPSSE.SYNC`, OPSEL 0x60 (R205). -/
  | mpsseSync
  /-- `JTAG.OPEN`, OPSEL 0x61 (R207). -/
  | jtagOpen (hz : Hertz)
  /-- `SPI.OPEN`, OPSEL 0x62 (R208). -/
  | spiOpen (hz : Hertz)
  /-- `I2C.OPEN`, OPSEL 0x63 (R209). -/
  | i2cOpen (hz : Hertz)
  /-- `CLOSE`, OPSEL 0x64 (R212). -/
  | close
  /-- `MPSSE.EMIT`, OPSEL 0x70 (R276). -/
  | mpsseEmit (cmd : MCmd)
  deriving DecidableEq, Repr

/-- The host operations by name: the `OPSEL` enumeration of R98, without operands. It is what a fault record names as
the current operation (60_exceptions.md R296). -/
inductive HostOp
  | qEnq | qEnqs | qFlush | qRead | qCount | clkConfigure | tapNext | tapPath | tapGoto | jtagReset
  | jtagScanIr | jtagScanDr | jtagSetEndIr | jtagSetEndDr | spiAssert | spiClear | spiTransact | spiWrite
  | spiRead | i2cStart | i2cRstart | i2cStop | i2cWriteByte | i2cReadByte | i2cXread | i2cXwrite
  | mpsseSync | jtagOpen | spiOpen | i2cOpen | close | mpsseEmit
  deriving DecidableEq, Repr

/-- The command a byte-oriented writing shift is (R223 to R226, R239 to R242). -/
def WriteOp.bytesInstr : WriteOp → List Byte → Instr
  | .outWpMsb, d => .outBytesWpMsb d
  | .outWnMsb, d => .outBytesWnMsb d
  | .outWpLsb, d => .outBytesWpLsb d
  | .outWnLsb, d => .outBytesWnLsb d
  | .ioWnRpMsb, d => .ioBytesWnRpMsb d
  | .ioWpRnMsb, d => .ioBytesWpRnMsb d
  | .ioWnRpLsb, d => .ioBytesWnRpLsb d
  | .ioWpRnLsb, d => .ioBytesWpRnLsb d

/-- The command a bit-oriented writing shift is (R227 to R230, R243 to R246). -/
def WriteOp.bitsInstr : WriteOp → Nat → Byte → Instr
  | .outWpMsb, k, d => .outBitsWpMsb k d
  | .outWnMsb, k, d => .outBitsWnMsb k d
  | .outWpLsb, k, d => .outBitsWpLsb k d
  | .outWnLsb, k, d => .outBitsWnLsb k d
  | .ioWnRpMsb, k, d => .ioBitsWnRpMsb k d
  | .ioWpRnMsb, k, d => .ioBitsWpRnMsb k d
  | .ioWnRpLsb, k, d => .ioBitsWnRpLsb k d
  | .ioWpRnLsb, k, d => .ioBitsWpRnLsb k d

/-- The command a byte-oriented reading shift is (R231 to R234). -/
def ReadOp.bytesInstr : ReadOp → Nat → Instr
  | .rpMsb, n => .inBytesRpMsb n
  | .rnMsb, n => .inBytesRnMsb n
  | .rpLsb, n => .inBytesRpLsb n
  | .rnLsb, n => .inBytesRnLsb n

/-- The command a bit-oriented reading shift is (R235 to R238). -/
def ReadOp.bitsInstr : ReadOp → Nat → Instr
  | .rpMsb, k => .inBitsRpMsb k
  | .rnMsb, k => .inBitsRnMsb k
  | .rpLsb, k => .inBitsRpLsb k
  | .rnLsb, k => .inBitsRnLsb k

/-- The TMS command (R247 to R252). -/
def TmsOp.instr : TmsOp → Nat → Byte → Instr
  | .wp, m, d => .tmsWp m d
  | .wn, m, d => .tmsWn m d
  | .wpRp, m, d => .tmsrWpRp m d
  | .wnRp, m, d => .tmsrWnRp m d
  | .wpRn, m, d => .tmsrWpRn m d
  | .wnRn, m, d => .tmsrWnRn m d

/-- The pin-set command (R260, R262). -/
def PsetOp.instr : PsetOp → Byte → Byte → Instr
  | .low, v, d => .setLow v d
  | .high, v, d => .setHigh v d

/-- The command without operands (R261, R263 to R265, R267 to R273, R275). -/
def NoargOp.instr : NoargOp → Instr
  | .getLow => .getLow
  | .getHigh => .getHigh
  | .loopOn => .loopOn
  | .loopOff => .loopOff
  | .sendImm => .sendImm
  | .div5Off => .div5Off
  | .div5On => .div5On
  | .ph3On => .ph3On
  | .ph3Off => .ph3Off
  | .adaptOn => .adaptOn
  | .adaptOff => .adaptOff
  | .bogus => .bogus

/-- What the engine's decoder finds at a command boundary of the stream (R88): a command of R93 and the bytes after it;
an opcode byte outside R93, one byte long, and the bytes after it; or a command whose bytes have not all been flushed
yet (an empty stream among them). -/
inductive CmdFetch
  | cmd (i : Instr) (rest : List Byte)
  | unknown (op : Byte) (rest : List Byte)
  | short
  deriving DecidableEq, Repr

/-- Why the bytes at the host port are no request (log entries 3 and 25): cut short; an OPSEL outside R98; a TAP state
code above 15 (R25); a bit or bool operand that is neither 0 nor 1. -/
inductive DecodeError
  | truncated
  | unknownOpsel (op : Byte)
  | badTapCode (b : Byte)
  | badBit (b : Byte)
  deriving DecidableEq, Repr

/-- The command of the set that the host's words name; none for a mnemonic outside R93. -/
def MCmd.instr : MCmd → Option Instr
  | .bytesW o _ d => some (o.bytesInstr d)
  | .bytesR o n => some (o.bytesInstr n)
  | .bitsW o k d => some (o.bitsInstr k d)
  | .bitsR o k => some (o.bitsInstr k)
  | .tms o m d => some (o.instr m d)
  | .pset o v d => some (o.instr v d)
  | .noarg o => some o.instr
  | .setDiv d => some (.setDiv (BitVec.ofNat 16 d))
  | .odCfg l h => some (.odCfg l h)
  | .unknown _ => none

/-- Which level an instruction belongs to. -/
def Instr.level : Instr → Level
  | .outBytesWpMsb .. => .m
  | .outBytesWnMsb .. => .m
  | .outBytesWpLsb .. => .m
  | .outBytesWnLsb .. => .m
  | .outBitsWpMsb .. => .m
  | .outBitsWnMsb .. => .m
  | .outBitsWpLsb .. => .m
  | .outBitsWnLsb .. => .m
  | .inBytesRpMsb .. => .m
  | .inBytesRnMsb .. => .m
  | .inBytesRpLsb .. => .m
  | .inBytesRnLsb .. => .m
  | .inBitsRpMsb .. => .m
  | .inBitsRnMsb .. => .m
  | .inBitsRpLsb .. => .m
  | .inBitsRnLsb .. => .m
  | .ioBytesWnRpMsb .. => .m
  | .ioBytesWpRnMsb .. => .m
  | .ioBytesWnRpLsb .. => .m
  | .ioBytesWpRnLsb .. => .m
  | .ioBitsWnRpMsb .. => .m
  | .ioBitsWpRnMsb .. => .m
  | .ioBitsWnRpLsb .. => .m
  | .ioBitsWpRnLsb .. => .m
  | .tmsWp .. => .m
  | .tmsWn .. => .m
  | .tmsrWpRp .. => .m
  | .tmsrWnRp .. => .m
  | .tmsrWpRn .. => .m
  | .tmsrWnRn .. => .m
  | .setLow .. => .m
  | .getLow => .m
  | .setHigh .. => .m
  | .getHigh => .m
  | .loopOn => .m
  | .loopOff => .m
  | .setDiv .. => .m
  | .sendImm => .m
  | .div5Off => .m
  | .div5On => .m
  | .ph3On => .m
  | .ph3Off => .m
  | .adaptOn => .m
  | .adaptOff => .m
  | .odCfg .. => .m
  | .bogus => .m
  | .qEnq .. => .h
  | .qEnqs .. => .h
  | .qFlush => .h
  | .qRead .. => .h
  | .qCount => .h
  | .clkConfigure .. => .h
  | .tapNext .. => .h
  | .tapPath .. => .h
  | .tapGoto .. => .h
  | .jtagReset => .h
  | .jtagScanIr .. => .h
  | .jtagScanDr .. => .h
  | .jtagSetEndIr .. => .h
  | .jtagSetEndDr .. => .h
  | .spiAssert => .h
  | .spiClear => .h
  | .spiTransact .. => .h
  | .spiWrite .. => .h
  | .spiRead .. => .h
  | .i2cStart => .h
  | .i2cRstart => .h
  | .i2cStop => .h
  | .i2cWriteByte .. => .h
  | .i2cReadByte .. => .h
  | .i2cXread .. => .h
  | .i2cXwrite .. => .h
  | .mpsseSync => .h
  | .jtagOpen .. => .h
  | .spiOpen .. => .h
  | .i2cOpen .. => .h
  | .close => .h
  | .mpsseEmit .. => .h

end Sys2Proof
end

