-- ==== Sys2Proof/Config.lean ====
section
/-! DEFINITION. What is fixed for the machine but not by its rules: the shape of the
parameter `OPMAP` (00_scope.md R9, 30_encoding.md R89), the numeric parameters of R9 as a record that `State` holds, the
default of the bad-command marker, and the free values (opaque constants: nothing in Lean can evaluate one). -/

namespace Sys2Proof.Config

/-- The parameter `OPMAP`: the opcode byte of every Level M command (R89, R93). Its value stands in
Sys2Proof/Decode.lean. -/
structure OpMap where
  outBytesWpMsb : Byte
  outBytesWnMsb : Byte
  outBytesWpLsb : Byte
  outBytesWnLsb : Byte
  outBitsWpMsb : Byte
  outBitsWnMsb : Byte
  outBitsWpLsb : Byte
  outBitsWnLsb : Byte
  inBytesRpMsb : Byte
  inBytesRnMsb : Byte
  inBytesRpLsb : Byte
  inBytesRnLsb : Byte
  inBitsRpMsb : Byte
  inBitsRnMsb : Byte
  inBitsRpLsb : Byte
  inBitsRnLsb : Byte
  ioBytesWnRpMsb : Byte
  ioBytesWpRnMsb : Byte
  ioBytesWnRpLsb : Byte
  ioBytesWpRnLsb : Byte
  ioBitsWnRpMsb : Byte
  ioBitsWpRnMsb : Byte
  ioBitsWnRpLsb : Byte
  ioBitsWpRnLsb : Byte
  tmsWp : Byte
  tmsWn : Byte
  tmsrWpRp : Byte
  tmsrWnRp : Byte
  tmsrWpRn : Byte
  tmsrWnRn : Byte
  setLow : Byte
  getLow : Byte
  setHigh : Byte
  getHigh : Byte
  loopOn : Byte
  loopOff : Byte
  setDiv : Byte
  sendImm : Byte
  div5Off : Byte
  div5On : Byte
  ph3On : Byte
  ph3Off : Byte
  adaptOn : Byte
  adaptOff : Byte
  odCfg : Byte
  bogus : Byte
  deriving DecidableEq, Repr

/-- The default of the bad-command marker, first byte of the echo of an unrecognised opcode (R96, U2). The marker itself is
a field of the channel (log entry 39). -/
def badCommandMarker : Byte := 0xFA

/-- The numeric parameters of R9. `State` holds them, so every statement holds for every choice of them. -/
structure Params where
  /-- `QCAP`, capacity of the queue buffer in bytes (R23). -/
  qcap : Nat
  /-- `MAX_BLOCK`, largest byte count of one byte-oriented shift command (R83). -/
  maxBlock : Nat
  /-- `F_HI`, base frequency in Hz with the prescaler off (R121). -/
  fHi : Nat
  /-- `F_LO`, base frequency in Hz with the prescaler on, and the threshold of R121. -/
  fLo : Nat
  /-- `DIV_MAX`, the largest divisor (R122). -/
  divMax : Nat
  /-- `RESET_PULSES`, TMS = 1 clocks of the reset idiom (R150). -/
  resetPulses : Nat
  /-- `SPI_SETTLE_REPEAT`, pin-set commands per chip-select change (R165). -/
  spiSettleRepeat : Nat
  /-- `I2C_REPEAT`, identical pin-set commands per phase (R182). -/
  i2cRepeat : Nat
  /-- Numerator of the 3-phase frequency compensation, 1.5 (R191, U13; log entry 39). -/
  threePhaseNum : Nat
  /-- Denominator of the 3-phase frequency compensation (R191, U13). -/
  threePhaseDen : Nat
  /-- `SYNC_POLL_LIMIT`, the handshake's poll bound; `none` is unbounded (R205). -/
  syncPollLimit : Option Nat
  /-- `USB_IN_SZ` (R206). -/
  usbInSz : Size32
  /-- `USB_OUT_SZ` (R206). -/
  usbOutSz : Size32
  /-- `RD_TIMEOUT_MS` (R206). -/
  rdTimeoutMs : Nat
  /-- `WR_TIMEOUT_MS` (R206). -/
  wrTimeoutMs : Nat
  /-- `LATENCY_MS` (R206). -/
  latencyMs : Byte
  deriving DecidableEq, Repr

/-- The parameters at the defaults of R9. DESIGN CHOICE (log entry 5): the parameters the spec leaves OPEN, that is
`SYNC_POLL_LIMIT` and the arguments of the transport setup calls, have no default in the spec. -/
def params : Params where
  qcap := 70000
  maxBlock := 65536
  fHi := 60000000
  fLo := 12000000
  divMax := 0xFFFF
  resetPulses := 5
  spiSettleRepeat := 5
  i2cRepeat := 4
  threePhaseNum := 3
  threePhaseDen := 2
  syncPollLimit := some 1000
  usbInSz := 65536
  usbOutSz := 65536
  rdTimeoutMs := 5000
  wrTimeoutMs := 5000
  latencyMs := 16

/-- What the fields of the encodings and the 16-bit divisor register demand of the parameters: a byte count fits its
16-bit field (R83), the divisor its 16 bits (R34). -/
def Params.wf (p : Params) : Bool := decide (p.maxBlock ≤ 65536) && decide (p.divMax < 65536)

/-- Free value: an unspecified byte of the queue buffer (R23, X1), by address. -/
opaque unspecifiedByte : Nat → Byte
/-- Free value: a level sampled on the data-in pin that the environment's list does not give (R62, X2). -/
opaque freeDataIn : Nat → Bool
/-- Free value: external levels of the undriven pins at a pin read that the environment's list does not give (R261). -/
opaque freePins : Nat → Byte
/-- Free value: what the response register holds before a bit-oriented or TMS read shifts into it; the bits not
captured stay stale (R96, X3). -/
opaque staleBits : Nat → Byte
/-- Free value: the target's TAP state after a clock whose TMS level, or whose arrival, no rule fixes (R221, R329). -/
opaque freeTap : Nat → Tap
/-- Free value: bits moved by a bit-oriented command whose length field exceeds 7 (R81 gives no meaning), less one. -/
opaque freeBitCount : Nat → Fin 8
/-- Free value: clocks made by a TMS command whose length field exceeds 6 (R81 gives no meaning), less one. -/
opaque freeTmsCount : Nat → Fin 7
/-- Free value: clock pulses made by a pin read (R69 gives no number), less one. -/
opaque freeReadClocks : Nat → Nat

end Sys2Proof.Config
end

