-- ==== Sys2Proof/Machine/State.lean ====
section
/-! DEFINITION. The state of the machine as plain data: the block's registers (spec/10_state.md R20 to R33, R39), its host
port, and the channel with the downstream engine and the target's TAP (R37, 20_memory.md R50, R60 to R66). The reasons a
step can stop, and the state after reset. -/

namespace Sys2Proof.Machine

/-- The queue buffer's cells: (address, byte) pairs, addresses strictly rising; an unlisted address holds no value that a
rule gives (R23, log entry 9). -/
abbrev Memory := List Host.Cell

/-- `CH`, the channel state (R21). -/
inductive ChState
  | closed | opened | dead
  deriving DecidableEq, Repr

/-- `PROTO` (R22). -/
inductive Proto
  | none | jtag | spi | i2c
  deriving DecidableEq, Repr

/-- `SPI_MODE` as the construction gives it (R31); SPI.OPEN refuses modes 1 and 3 (R172, R208). -/
inductive SpiMode
  | m0 | m1 | m2 | m3
  deriving DecidableEq, Repr

/-- The capability flags `CAP_MPSSE`, `CAP_ENH`, `CAP_OD` (R30): "a small struct of booleans". -/
structure Caps where
  mpsse : Bool
  enh : Bool
  od : Bool
  deriving DecidableEq, Repr

/-- The six faults of the block (60_exceptions.md R290). They are no stop: fault entry (R296) is a next state. -/
inductive FaultCode
  | transport | synchronization | configuration | sizing | noPath | tapUnknown
  deriving DecidableEq, Repr

/-- The reasons of a `ConfigurationError` (R293, R294). -/
inductive CfgReason
  | channelNotOpen | wrongProtocol | alreadyOpenOrDead | notOpen | noMpsse | unsupportedSpiMode
  | threePhaseNeedsEnhanced | unknownCommand | needsEnhanced | needsOpenDrain | notStable
  deriving DecidableEq, Repr

/-- The detail a fault record holds (R290, last column). -/
inductive Detail
  /-- `TransportFault(write)` (R112). -/
  | write
  /-- `TransportFault(read, got)` (R113). -/
  | read (got : Nat)
  /-- A failed `get_queued_byte_count` (R114). -/
  | count
  /-- A failed capability query of an open (R60, R211; log entry 20). -/
  | supportsMpsse
  | supportsEnhanced
  | supportsOpenDrain
  /-- A failed `set_bit_mode` of an open (R206). -/
  | setBitMode
  /-- A failed `set_usb_transfer_sizes` (R206). -/
  | setUsbSizes
  /-- A failed `set_timeouts` (R206). -/
  | setTimeouts
  /-- A failed `set_latency_timer` (R206). -/
  | setLatency
  /-- The handshake poll reached its bound (R205). -/
  | syncPollTimeout
  /-- A failed `set_bit_mode` of CLOSE (R212). -/
  | close
  /-- The two bytes a failed handshake read (R205). -/
  | got (bs : List Byte)
  /-- The reason of a `ConfigurationError`. -/
  | reason (r : CfgReason)
  /-- Needed and available sizes of a queue overflow (R110, R111). -/
  | queueOverflow (need free : Nat)
  /-- Needed and available sizes of a bit count, a buffer or an I2C address (R59, R295 (b), (c); log entry 22). -/
  | sizes (need available : Nat)
  /-- An operand of MPSSE.EMIT outside its range: needed and available sizes (R276, R295 (d); log entry 22). -/
  | operand (need available : Nat)
  /-- The pair outside the path table (R135). -/
  | path (src dst : Tap)
  /-- `TapUnknown` records nothing (R290). -/
  | nothing
  deriving DecidableEq, Repr

/-- One record of `FLOG` (R33): code, operation, detail. -/
structure FaultRec where
  code : FaultCode
  op : HostOp
  info : Detail
  deriving DecidableEq, Repr

/-- What the block answers to the host at the end of an operation (R98): nothing asked yet, a return value of the types
of R98, or a fault code. -/
inductive Answer
  | none
  | done
  | byte (b : Byte)
  | bytes (bs : List Byte)
  | nat (n : Nat)
  | divisor (d : Divisor)
  | tap (t : Tap)
  | bits (bs : List Bool)
  | acked (b : Bool)
  | optBytes (o : Option (List Byte))
  | optNat (o : Option Nat)
  | fault (c : FaultCode)
  deriving DecidableEq, Repr

/-- The bit modes the block asks the transport for (R64): `Reset` and `MPSSE`. -/
inductive BitMode
  | reset | mpsse
  deriving DecidableEq, Repr

/-- A call of the transport (R60), with the argument widths of R64. -/
inductive TCall
  | write (bs : List Byte)
  | read (maxLen : Nat)
  | count
  | setBitMode (mask : Byte) (mode : BitMode)
  | setUsbSizes (inSz outSz : Size32)
  | setTimeouts (readMs writeMs : Nat)
  | setLatency (ms : Byte)
  | supportsMpsse
  | supportsEnhanced
  | supportsOpenDrain
  deriving DecidableEq, Repr

/-- What the channel agent does at one transport call (R5, R60; log entry 10): it answers, at most `give` response bytes
having reached `RX` before (R68: `RX` grows byte by byte); or the call fails (a write after `took` of its bytes, a read by
failure or timeout). -/
inductive Turn
  | answers (give : Nat)
  | fails (took : Nat)
  deriving DecidableEq, Repr

/-- One clock pulse the engine makes (R221, R222): the clock's idle level, the levels of the data-out and TMS latches
during it, the edges written and sampled on, the level sampled, three-phase and adaptive clocking. -/
structure Pulse where
  idle : Bool
  dout : Bool
  tms : Bool
  write : Option Edge
  read : Option Edge
  din : Option Bool
  threePhase : Bool
  adaptive : Bool
  deriving DecidableEq, Repr

/-- What the engine does to its pins, in order (spaces PINS and BUS of R50): a clock pulse, a pin-set of the low or the
high byte (R260, R262), or the mode change that makes pins inputs (R212). -/
inductive WireEvt
  | pulse (p : Pulse)
  | low (val dir : Byte)
  | high (val dir : Byte)
  | mode (mask : Byte) (m : BitMode)
  deriving DecidableEq, Repr

/-- `ENG`, the downstream engine's configuration (R37 (a)), its pin latches, and the response bytes it has gathered and
not yet handed to the transport (R73, R273). -/
structure Engine where
  /-- Divide-by-5 prescaler on (R267, R268). -/
  div5 : Bool
  /-- The divisor in force (R34, R266). -/
  divisor : Divisor
  /-- 3-phase clocking on (R269, R270). -/
  threePhase : Bool
  /-- Adaptive clocking on (R271, R272). -/
  adaptive : Bool
  /-- Loopback on (R264, R265). -/
  loopback : Bool
  /-- Open-drain masks of the low and the high pin byte (R274), those of the last `OD_CFG` (log entry 41). -/
  odLow : Byte
  odHigh : Byte
  /-- Value and direction latches of the low pin byte (R260). -/
  lowVal : Byte
  lowDir : Byte
  /-- Value and direction latches of the high pin byte (R262). -/
  highVal : Byte
  highDir : Byte
  /-- Response bytes gathered in the chip (R273). -/
  gathered : List Byte
  deriving DecidableEq, Repr

/-- The channel agent (R5 (c)): the transport, the downstream engine and the target's TAP, with the environment's part
as plain data. -/
structure Chan where
  /-- Answers of the capability queries (R65). -/
  sup : Caps
  /-- The bad-command marker (R96, U2): the chip answers with it, and the handshake expects it (log entry 39). -/
  marker : Byte
  /-- Bit mode last set (R64). -/
  bitMode : BitMode
  /-- Arguments of the other setup calls, as last set (R64, R206). -/
  usbIn : Size32
  usbOut : Size32
  rdTimeout : Nat
  wrTimeout : Nat
  latency : Byte
  /-- `TX`: bytes flushed that the engine has not executed yet, oldest first (R50). -/
  tx : List Byte
  /-- `RX`: response bytes not yet read, oldest first (R50). -/
  rx : List Byte
  /-- Response bytes the chip has handed to the transport that have not reached `RX` yet (R68, R273; log entry 32). -/
  inFlight : List Byte
  /-- The engine (R37 (a)). -/
  eng : Engine
  /-- The target's real TAP state (R37 (c)). -/
  target : Tap
  /-- What the engine did to its pins, oldest first (the model's own record, log entry 28). -/
  wire : List WireEvt
  /-- The transport calls made, oldest first (the model's own record, log entry 28). -/
  calls : List TCall
  /-- What the channel agent will do at the coming transport calls (log entry 10). -/
  turns : List Turn
  /-- Levels the environment will put on the data-in pin, one a sample (log entry 13). -/
  din : List Bool
  /-- Levels the environment will put on the undriven pins, one byte a pin read (log entry 14). -/
  pins : List Byte
  /-- Counter of free values drawn (the model's own, log entry 15). -/
  fresh : Nat
  deriving DecidableEq, Repr

/-- The machine: one instance of the block (R20 to R33), its host port, and its channel. -/
structure State where
  /-- `CH` (R21). -/
  ch : ChState
  /-- `PROTO` (R22). -/
  proto : Proto
  /-- `Q.buf` (R23). -/
  qbuf : Memory
  /-- `Q.cur` (R24). -/
  qcur : Nat
  /-- `TAP.cur` (R25). -/
  tapCur : Tap
  /-- `TAP.known` (R26). -/
  tapKnown : Bool
  /-- `END_IR` (R28). -/
  endIr : Tap
  /-- `END_DR` (R28). -/
  endDr : Tap
  /-- `PL_VAL` (R29). -/
  plVal : Byte
  /-- `PL_DIR` (R29). -/
  plDir : Byte
  /-- `CAP_MPSSE`, `CAP_ENH`, `CAP_OD` as latched at the open (R30, R211). -/
  cap : Caps
  /-- `SPI_CS_ACTIVE_HIGH` (R31). -/
  spiCsActiveHigh : Bool
  /-- `SPI_MODE` (R31). -/
  spiMode : SpiMode
  /-- `I2C_3PHASE` (R32). -/
  i2cThreePhase : Bool
  /-- `FLOG` (R33). -/
  flog : List FaultRec
  /-- The numeric parameters of R9. -/
  par : Config.Params
  /-- The answer to the last host operation (R98). -/
  answer : Answer
  /-- Requests waiting at the host operation port, as bytes (R98, log entry 1). -/
  port : List Byte
  /-- The channel. -/
  chan : Chan
  deriving DecidableEq, Repr

/-- The reasons a step stops with a fault. The block's own six faults (R290) are not among them. -/
inductive Fault
  /-- Raised by MPSSE.SYNC and the three opens when `SYNC_POLL_LIMIT` is unbounded and the channel never delivers a byte:
  the poll never ends (93_implementation_defined.md X13: "unbounded: stuck"). Safe: nothing follows that step. -/
  | handshakeHold
  deriving DecidableEq, Repr

/-- The reasons a step is refused. -/
inductive Refusal
  /-- Raised by an arm of `exec` whose instruction has no meaning yet (none at present). Safe. -/
  | notModelled (mnemonic : String)
  /-- Raised by `step` when the bytes at the host port are no request of R98 (log entry 25). Safe. -/
  | badRequest (e : DecodeError)
  deriving DecidableEq, Repr

/-- The engine at reset. The block's reset does not touch it and the spec gives no values (R37, R39, R321): DESIGN CHOICE
(log entry 7), every switch off, every latch 0. -/
def Engine.reset : Engine where
  div5 := false
  divisor := 0
  threePhase := false
  adaptive := false
  loopback := false
  odLow := 0
  odHigh := 0
  lowVal := 0
  lowDir := 0
  highVal := 0
  highDir := 0
  gathered := []

/-- The channel at reset. Unknown by R39 and R321: DESIGN CHOICE (log entries 6 to 8), the capabilities at the defaults of
R9 and every stream and list empty. -/
def Chan.reset : Chan where
  sup := ⟨true, true, false⟩
  marker := Config.badCommandMarker
  bitMode := .reset
  usbIn := 0
  usbOut := 0
  rdTimeout := 0
  wrTimeout := 0
  latency := 0
  tx := []
  rx := []
  inFlight := []
  eng := Engine.reset
  target := .reset
  wire := []
  calls := []
  turns := []
  din := []
  pins := []
  fresh := 0

/-- The machine right after reset (R39, R320). The configuration inputs have no reset value (R30 to R32, R39): they hold
the defaults of R9 (DESIGN CHOICE, log entries 5 and 6). -/
def State.reset : State where
  ch := .closed
  proto := .none
  qbuf := []
  qcur := 0
  tapCur := .reset
  tapKnown := false
  endIr := .idle
  endDr := .idle
  plVal := 0x00
  plDir := 0x00
  cap := ⟨true, true, false⟩
  spiCsActiveHigh := false
  spiMode := .m0
  i2cThreePhase := false
  flog := []
  par := Config.params
  answer := .none
  port := []
  chan := Chan.reset

end Sys2Proof.Machine
end

