-- ==== Sys2Proof/Machine/Flags.lean ====
section
/-! DEFINITION. The block's one-bit and coded derived values. There are no condition codes (spec/10_state.md R35); what
there is: the `stable` attribute (R27), the levels derived from the SPI configuration (R31), the capability a command
needs (30_encoding.md R93, R97), and the numeric fault codes (60_exceptions.md R290). -/

namespace Sys2Proof.Machine

/-- `stable(s)`: "true only for RESET, IDLE, DRPAUSE, IRPAUSE" (R27). -/
def stable : Tap → Bool
  | .reset => true
  | .idle => true
  | .drPause => true
  | .irPause => true
  | .drSelect => false
  | .drCapture => false
  | .drShift => false
  | .drExit1 => false
  | .drExit2 => false
  | .drUpdate => false
  | .irSelect => false
  | .irCapture => false
  | .irShift => false
  | .irExit1 => false
  | .irExit2 => false
  | .irUpdate => false

/-- `CS_ACTIVE`, the level of the select pin when asserted (R31). -/
def csActive (activeHigh : Bool) : Bool := activeHigh

/-- `CS_IDLE = 1 - CS_ACTIVE` (R31). -/
def csIdle (activeHigh : Bool) : Bool := !csActive activeHigh

/-- `CPOL`, the idle level of the clock pin: 1 in SPI mode 2 (R31). -/
def cpol : SpiMode → Bool
  | .m0 => false
  | .m1 => false
  | .m2 => true
  | .m3 => false

/-- `SPI_MODE` in {0, 2} (R172, R208). -/
def spiModeSupported : SpiMode → Bool
  | .m0 => true
  | .m1 => false
  | .m2 => true
  | .m3 => false

/-- The capability that gates a command (R97). -/
inductive Gate
  | always | enhanced | openDrain
  deriving DecidableEq, Repr

/-- Which capability a command without operands needs (R93, column "needs"). -/
def noargGate : NoargOp → Gate
  | .getLow => .always
  | .getHigh => .always
  | .loopOn => .always
  | .loopOff => .always
  | .sendImm => .always
  | .div5Off => .enhanced
  | .div5On => .enhanced
  | .ph3On => .enhanced
  | .ph3Off => .enhanced
  | .adaptOn => .enhanced
  | .adaptOff => .enhanced
  | .bogus => .always

/-- Which capability a command needs (R93, column "needs"; R97). -/
def keyGate : CmdKey → Gate
  | .bytesW _ => .always
  | .bytesR _ => .always
  | .bitsW _ => .always
  | .bitsR _ => .always
  | .tms _ => .always
  | .pset _ => .always
  | .noarg o => noargGate o
  | .setDiv => .always
  | .odCfg => .openDrain

/-- Whether a chip with these capabilities has the commands behind a gate (R97). -/
def Caps.opens (c : Caps) : Gate → Bool
  | .always => true
  | .enhanced => c.enh
  | .openDrain => c.od

/-- The code of a fault (R290); 0 is "no fault". -/
def FaultCode.code : FaultCode → Nat
  | .transport => 1
  | .synchronization => 2
  | .configuration => 3
  | .sizing => 4
  | .noPath => 5
  | .tapUnknown => 6

end Sys2Proof.Machine
end

