-- ==== Sys2Proof/Decode.lean ====
section
/-! DEFINITION. Decoding and encoding. Level M: the engine's decoder of the command stream (30_encoding.md R88, R93), total
on any bytes, and the encodings of the formats (R81, R83 to R87). Level H: the host port's requests, `OPSEL` first (R98);
the operand layout after it is the model's (log entry 3, the spec gives none). The byte tables `OPMAP` (R93) and `OPSEL`
(R98) stand here. -/

namespace Sys2Proof

/-- `OPMAP` at its default, the values of R93 (log entry 4: the spec's own default, from general knowledge but for
`BOGUS`). -/
def Config.opmap : Config.OpMap where
  outBytesWpMsb := 0x10
  outBytesWnMsb := 0x11
  outBytesWpLsb := 0x18
  outBytesWnLsb := 0x19
  outBitsWpMsb := 0x12
  outBitsWnMsb := 0x13
  outBitsWpLsb := 0x1A
  outBitsWnLsb := 0x1B
  inBytesRpMsb := 0x20
  inBytesRnMsb := 0x24
  inBytesRpLsb := 0x28
  inBytesRnLsb := 0x2C
  inBitsRpMsb := 0x22
  inBitsRnMsb := 0x26
  inBitsRpLsb := 0x2A
  inBitsRnLsb := 0x2E
  ioBytesWnRpMsb := 0x31
  ioBytesWpRnMsb := 0x34
  ioBytesWnRpLsb := 0x39
  ioBytesWpRnLsb := 0x3C
  ioBitsWnRpMsb := 0x33
  ioBitsWpRnMsb := 0x36
  ioBitsWnRpLsb := 0x3B
  ioBitsWpRnLsb := 0x3E
  tmsWp := 0x4A
  tmsWn := 0x4B
  tmsrWpRp := 0x6A
  tmsrWnRp := 0x6B
  tmsrWpRn := 0x6E
  tmsrWnRn := 0x6F
  setLow := 0x80
  getLow := 0x81
  setHigh := 0x82
  getHigh := 0x83
  loopOn := 0x84
  loopOff := 0x85
  setDiv := 0x86
  sendImm := 0x87
  div5Off := 0x8A
  div5On := 0x8B
  ph3On := 0x8C
  ph3Off := 0x8D
  adaptOn := 0x96
  adaptOff := 0x97
  odCfg := 0x9E
  bogus := 0xAA

/-- The `OPSEL` code of a host operation (R98). -/
def HostOp.opsel : HostOp → Byte
  | .qEnq => 0x00
  | .qEnqs => 0x01
  | .qFlush => 0x02
  | .qRead => 0x03
  | .qCount => 0x04
  | .clkConfigure => 0x10
  | .tapNext => 0x20
  | .tapPath => 0x21
  | .tapGoto => 0x22
  | .jtagReset => 0x30
  | .jtagScanIr => 0x31
  | .jtagScanDr => 0x32
  | .jtagSetEndIr => 0x33
  | .jtagSetEndDr => 0x34
  | .spiAssert => 0x40
  | .spiClear => 0x41
  | .spiTransact => 0x42
  | .spiWrite => 0x43
  | .spiRead => 0x44
  | .i2cStart => 0x50
  | .i2cRstart => 0x51
  | .i2cStop => 0x52
  | .i2cWriteByte => 0x53
  | .i2cReadByte => 0x54
  | .i2cXread => 0x55
  | .i2cXwrite => 0x56
  | .mpsseSync => 0x60
  | .jtagOpen => 0x61
  | .spiOpen => 0x62
  | .i2cOpen => 0x63
  | .close => 0x64
  | .mpsseEmit => 0x70

/-- Every host operation, in the order of R98. -/
def HostOp.all : List HostOp :=
  [.qEnq, .qEnqs, .qFlush, .qRead, .qCount, .clkConfigure, .tapNext, .tapPath, .tapGoto, .jtagReset,
   .jtagScanIr, .jtagScanDr, .jtagSetEndIr, .jtagSetEndDr, .spiAssert, .spiClear, .spiTransact, .spiWrite, .spiRead, .i2cStart,
   .i2cRstart, .i2cStop, .i2cWriteByte, .i2cReadByte, .i2cXread, .i2cXwrite, .mpsseSync, .jtagOpen, .spiOpen, .i2cOpen, .close, .mpsseEmit]

/-- A command's opcode byte (R93). -/
def CmdKey.opcode : CmdKey → Byte
  | .bytesW .outWpMsb => Config.opmap.outBytesWpMsb
  | .bytesW .outWnMsb => Config.opmap.outBytesWnMsb
  | .bytesW .outWpLsb => Config.opmap.outBytesWpLsb
  | .bytesW .outWnLsb => Config.opmap.outBytesWnLsb
  | .bytesW .ioWnRpMsb => Config.opmap.ioBytesWnRpMsb
  | .bytesW .ioWpRnMsb => Config.opmap.ioBytesWpRnMsb
  | .bytesW .ioWnRpLsb => Config.opmap.ioBytesWnRpLsb
  | .bytesW .ioWpRnLsb => Config.opmap.ioBytesWpRnLsb
  | .bitsW .outWpMsb => Config.opmap.outBitsWpMsb
  | .bitsW .outWnMsb => Config.opmap.outBitsWnMsb
  | .bitsW .outWpLsb => Config.opmap.outBitsWpLsb
  | .bitsW .outWnLsb => Config.opmap.outBitsWnLsb
  | .bitsW .ioWnRpMsb => Config.opmap.ioBitsWnRpMsb
  | .bitsW .ioWpRnMsb => Config.opmap.ioBitsWpRnMsb
  | .bitsW .ioWnRpLsb => Config.opmap.ioBitsWnRpLsb
  | .bitsW .ioWpRnLsb => Config.opmap.ioBitsWpRnLsb
  | .bytesR .rpMsb => Config.opmap.inBytesRpMsb
  | .bytesR .rnMsb => Config.opmap.inBytesRnMsb
  | .bytesR .rpLsb => Config.opmap.inBytesRpLsb
  | .bytesR .rnLsb => Config.opmap.inBytesRnLsb
  | .bitsR .rpMsb => Config.opmap.inBitsRpMsb
  | .bitsR .rnMsb => Config.opmap.inBitsRnMsb
  | .bitsR .rpLsb => Config.opmap.inBitsRpLsb
  | .bitsR .rnLsb => Config.opmap.inBitsRnLsb
  | .tms .wp => Config.opmap.tmsWp
  | .tms .wn => Config.opmap.tmsWn
  | .tms .wpRp => Config.opmap.tmsrWpRp
  | .tms .wnRp => Config.opmap.tmsrWnRp
  | .tms .wpRn => Config.opmap.tmsrWpRn
  | .tms .wnRn => Config.opmap.tmsrWnRn
  | .pset .low => Config.opmap.setLow
  | .pset .high => Config.opmap.setHigh
  | .noarg .getLow => Config.opmap.getLow
  | .noarg .getHigh => Config.opmap.getHigh
  | .noarg .loopOn => Config.opmap.loopOn
  | .noarg .loopOff => Config.opmap.loopOff
  | .noarg .sendImm => Config.opmap.sendImm
  | .noarg .div5Off => Config.opmap.div5Off
  | .noarg .div5On => Config.opmap.div5On
  | .noarg .ph3On => Config.opmap.ph3On
  | .noarg .ph3Off => Config.opmap.ph3Off
  | .noarg .adaptOn => Config.opmap.adaptOn
  | .noarg .adaptOff => Config.opmap.adaptOff
  | .noarg .bogus => Config.opmap.bogus
  | .setDiv => Config.opmap.setDiv
  | .odCfg => Config.opmap.odCfg

/-- Every command of R93. -/
def CmdKey.all : List CmdKey :=
  [.bytesW .outWpMsb, .bytesW .outWnMsb, .bytesW .outWpLsb, .bytesW .outWnLsb, .bytesW .ioWnRpMsb, .bytesW .ioWpRnMsb,
   .bytesW .ioWnRpLsb, .bytesW .ioWpRnLsb, .bitsW .outWpMsb, .bitsW .outWnMsb, .bitsW .outWpLsb, .bitsW .outWnLsb,
   .bitsW .ioWnRpMsb, .bitsW .ioWpRnMsb, .bitsW .ioWnRpLsb, .bitsW .ioWpRnLsb, .bytesR .rpMsb, .bytesR .rnMsb,
   .bytesR .rpLsb, .bytesR .rnLsb, .bitsR .rpMsb, .bitsR .rnMsb, .bitsR .rpLsb, .bitsR .rnLsb,
   .tms .wp, .tms .wn, .tms .wpRp, .tms .wnRp, .tms .wpRn, .tms .wnRn,
   .pset .low, .pset .high, .noarg .getLow, .noarg .getHigh, .noarg .loopOn, .noarg .loopOff,
   .noarg .sendImm, .noarg .div5Off, .noarg .div5On, .noarg .ph3On, .noarg .ph3Off, .noarg .adaptOn,
   .noarg .adaptOff, .noarg .bogus, .setDiv, .odCfg]

/-- The command an opcode byte selects (R88: "look `op` up"); none for a byte outside R93. -/
def CmdKey.ofOpcode (op : Byte) : Option CmdKey := CmdKey.all.find? fun k => k.opcode == op

/-- The host operation an `OPSEL` code selects (R98). -/
def HostOp.ofOpsel (op : Byte) : Option HostOp := HostOp.all.find? fun h => h.opsel == op

/-- `lo8(v) = v mod 256` (R11). -/
def lo8 (v : Nat) : Byte := BitVec.ofNat 8 v

/-- `hi8(v) = (v div 256) mod 256` (R11). -/
def hi8 (v : Nat) : Byte := BitVec.ofNat 8 (v / 256)

/-- A 16-bit little-endian field, low byte first (R52). -/
def le16 (lo hi : Byte) : Nat := lo.toNat + 256 * hi.toNat

/-- The code of a TAP state: its position in the list of R25. -/
def Tap.code : Tap → Nat
  | .reset => 0
  | .idle => 1
  | .drSelect => 2
  | .drCapture => 3
  | .drShift => 4
  | .drExit1 => 5
  | .drPause => 6
  | .drExit2 => 7
  | .drUpdate => 8
  | .irSelect => 9
  | .irCapture => 10
  | .irShift => 11
  | .irExit1 => 12
  | .irPause => 13
  | .irExit2 => 14
  | .irUpdate => 15

/-- Every TAP state, in the order of the codes (R25). -/
def Tap.all : List Tap :=
  [.reset, .idle, .drSelect, .drCapture, .drShift, .drExit1, .drPause, .drExit2,
   .drUpdate, .irSelect, .irCapture, .irShift, .irExit1, .irPause, .irExit2, .irUpdate]

/-- The TAP state of a code (R25); none above 15. -/
def Tap.ofCode (n : Nat) : Option Tap := Tap.all[n]?

/-! ## Level M -/

/-- The operands of a command and the bytes after it (R81, R83 to R88): length fields are counts minus one, 16-bit fields
little-endian; a byte-oriented writing shift takes as many data bytes as its length field says. -/
def CmdKey.decodeOperands : CmdKey → List Byte → CmdFetch
  | .bytesW o, lenL :: lenH :: ds =>
    if le16 lenL lenH + 1 ≤ ds.length then
      .cmd (o.bytesInstr (ds.take (le16 lenL lenH + 1))) (ds.drop (le16 lenL lenH + 1))
    else .short
  | .bytesR o, lenL :: lenH :: r => .cmd (o.bytesInstr (le16 lenL lenH + 1)) r
  | .bitsW o, len :: d :: r => .cmd (o.bitsInstr (len.toNat + 1) d) r
  | .bitsR o, len :: r => .cmd (o.bitsInstr (len.toNat + 1)) r
  | .tms o, len :: d :: r => .cmd (o.instr (len.toNat + 1) d) r
  | .pset o, val :: dir :: r => .cmd (o.instr val dir) r
  | .noarg o, r => .cmd o.instr r
  | .setDiv, divL :: divH :: r => .cmd (.setDiv (BitVec.ofNat 16 (le16 divL divH))) r
  | .odCfg, maskL :: maskH :: r => .cmd (.odCfg maskL maskH) r
  | _, _ => .short

/-- The engine's decoder at a command boundary (R88). -/
def decodeCmd : List Byte → CmdFetch
  | [] => .short
  | op :: r =>
    match CmdKey.ofOpcode op with
    | some k => k.decodeOperands r
    | none => .unknown op r

/-- Format SBW (R81, R83): opcode, count minus one low byte first, data. -/
def encSbw (op : Byte) (d : List Byte) : List Byte := op :: lo8 (d.length - 1) :: hi8 (d.length - 1) :: d

/-- Format SBR (R81, R83). -/
def encSbr (op : Byte) (n : Nat) : List Byte := [op, lo8 (n - 1), hi8 (n - 1)]

/-- Format SbW (R81, R84). -/
def encBitsW (op : Byte) (k : Nat) (d : Byte) : List Byte := [op, lo8 (k - 1), d]

/-- Format SbR (R81, R84). -/
def encBitsR (op : Byte) (k : Nat) : List Byte := [op, lo8 (k - 1)]

/-- Format TMS (R81, R86). -/
def encTms (op : Byte) (m : Nat) (d : Byte) : List Byte := [op, lo8 (m - 1), d]

/-- The bytes of a Level M command, in stream order (R81, R93); nothing for a host operation. -/
def encodeCmd : Instr → List Byte
  | .outBytesWpMsb d => encSbw Config.opmap.outBytesWpMsb d
  | .outBytesWnMsb d => encSbw Config.opmap.outBytesWnMsb d
  | .outBytesWpLsb d => encSbw Config.opmap.outBytesWpLsb d
  | .outBytesWnLsb d => encSbw Config.opmap.outBytesWnLsb d
  | .outBitsWpMsb k d => encBitsW Config.opmap.outBitsWpMsb k d
  | .outBitsWnMsb k d => encBitsW Config.opmap.outBitsWnMsb k d
  | .outBitsWpLsb k d => encBitsW Config.opmap.outBitsWpLsb k d
  | .outBitsWnLsb k d => encBitsW Config.opmap.outBitsWnLsb k d
  | .inBytesRpMsb n => encSbr Config.opmap.inBytesRpMsb n
  | .inBytesRnMsb n => encSbr Config.opmap.inBytesRnMsb n
  | .inBytesRpLsb n => encSbr Config.opmap.inBytesRpLsb n
  | .inBytesRnLsb n => encSbr Config.opmap.inBytesRnLsb n
  | .inBitsRpMsb k => encBitsR Config.opmap.inBitsRpMsb k
  | .inBitsRnMsb k => encBitsR Config.opmap.inBitsRnMsb k
  | .inBitsRpLsb k => encBitsR Config.opmap.inBitsRpLsb k
  | .inBitsRnLsb k => encBitsR Config.opmap.inBitsRnLsb k
  | .ioBytesWnRpMsb d => encSbw Config.opmap.ioBytesWnRpMsb d
  | .ioBytesWpRnMsb d => encSbw Config.opmap.ioBytesWpRnMsb d
  | .ioBytesWnRpLsb d => encSbw Config.opmap.ioBytesWnRpLsb d
  | .ioBytesWpRnLsb d => encSbw Config.opmap.ioBytesWpRnLsb d
  | .ioBitsWnRpMsb k d => encBitsW Config.opmap.ioBitsWnRpMsb k d
  | .ioBitsWpRnMsb k d => encBitsW Config.opmap.ioBitsWpRnMsb k d
  | .ioBitsWnRpLsb k d => encBitsW Config.opmap.ioBitsWnRpLsb k d
  | .ioBitsWpRnLsb k d => encBitsW Config.opmap.ioBitsWpRnLsb k d
  | .tmsWp m d => encTms Config.opmap.tmsWp m d
  | .tmsWn m d => encTms Config.opmap.tmsWn m d
  | .tmsrWpRp m d => encTms Config.opmap.tmsrWpRp m d
  | .tmsrWnRp m d => encTms Config.opmap.tmsrWnRp m d
  | .tmsrWpRn m d => encTms Config.opmap.tmsrWpRn m d
  | .tmsrWnRn m d => encTms Config.opmap.tmsrWnRn m d
  | .setLow val dir => [Config.opmap.setLow, val, dir]
  | .getLow => [Config.opmap.getLow]
  | .setHigh val dir => [Config.opmap.setHigh, val, dir]
  | .getHigh => [Config.opmap.getHigh]
  | .loopOn => [Config.opmap.loopOn]
  | .loopOff => [Config.opmap.loopOff]
  | .setDiv d => [Config.opmap.setDiv, lo8 d.toNat, hi8 d.toNat]
  | .sendImm => [Config.opmap.sendImm]
  | .div5Off => [Config.opmap.div5Off]
  | .div5On => [Config.opmap.div5On]
  | .ph3On => [Config.opmap.ph3On]
  | .ph3Off => [Config.opmap.ph3Off]
  | .adaptOn => [Config.opmap.adaptOn]
  | .adaptOff => [Config.opmap.adaptOff]
  | .odCfg maskL maskH => [Config.opmap.odCfg, maskL, maskH]
  | .bogus => [Config.opmap.bogus]
  | .qEnq .. => []
  | .qEnqs .. => []
  | .qFlush => []
  | .qRead .. => []
  | .qCount => []
  | .clkConfigure .. => []
  | .tapNext .. => []
  | .tapPath .. => []
  | .tapGoto .. => []
  | .jtagReset => []
  | .jtagScanIr .. => []
  | .jtagScanDr .. => []
  | .jtagSetEndIr .. => []
  | .jtagSetEndDr .. => []
  | .spiAssert => []
  | .spiClear => []
  | .spiTransact .. => []
  | .spiWrite .. => []
  | .spiRead .. => []
  | .i2cStart => []
  | .i2cRstart => []
  | .i2cStop => []
  | .i2cWriteByte .. => []
  | .i2cReadByte .. => []
  | .i2cXread .. => []
  | .i2cXwrite .. => []
  | .mpsseSync => []
  | .jtagOpen .. => []
  | .spiOpen .. => []
  | .i2cOpen .. => []
  | .close => []
  | .mpsseEmit .. => []

/-! ## Level H: the host port -/

/-- A natural operand at the port: four bytes, low byte first (log entry 3). -/
def le32 (v : Nat) : List Byte :=
  [BitVec.ofNat 8 v, BitVec.ofNat 8 (v / 256), BitVec.ofNat 8 (v / 65536), BitVec.ofNat 8 (v / 16777216)]

/-- A byte array at the port: its length, then its bytes (log entry 3). -/
def encBytes (bs : List Byte) : List Byte := le32 bs.length ++ bs

/-- A bit or bool operand at the port: one byte, 0 or 1 (log entry 3). -/
def encBool (b : Bool) : Byte := if b then 1 else 0

/-- A TAP state at the port: its code (R25). -/
def encTap (t : Tap) : Byte := BitVec.ofNat 8 t.code

/-- What a port reader answers: a value and the bytes after it, or why there is none. -/
abbrev PortRead (α : Type) := Except DecodeError (α × List Byte)

/-- One byte. -/
def rdByte : List Byte → PortRead Byte
  | [] => .error .truncated
  | b :: r => .ok (b, r)

/-- A natural of four bytes, low byte first. -/
def rdNat : List Byte → PortRead Nat
  | a :: b :: c :: d :: r => .ok (a.toNat + 256 * b.toNat + 65536 * c.toNat + 16777216 * d.toNat, r)
  | _ => .error .truncated

/-- A frequency operand (R120: an unsigned 32-bit natural). -/
def rdHertz (bs : List Byte) : PortRead Hertz :=
  match rdNat bs with
  | .ok (v, r) => .ok (BitVec.ofNat 32 v, r)
  | .error e => .error e

/-- A byte array. -/
def rdBytes (bs : List Byte) : PortRead (List Byte) :=
  match rdNat bs with
  | .ok (n, r) => if n ≤ r.length then .ok (r.take n, r.drop n) else .error .truncated
  | .error e => .error e

/-- A bit or bool. -/
def rdBool (bs : List Byte) : PortRead Bool :=
  match bs with
  | [] => .error .truncated
  | b :: r => if b = 0 then .ok (false, r) else if b = 1 then .ok (true, r) else .error (.badBit b)

/-- A TAP state (R25). -/
def rdTap (bs : List Byte) : PortRead Tap :=
  match bs with
  | [] => .error .truncated
  | b :: r =>
    match Tap.ofCode b.toNat with
    | some t => .ok (t, r)
    | none => .error (.badTapCode b)

/-- One operand, then the instruction made of it. -/
def rdOne {α β : Type} (rd : List Byte → PortRead α) (mk : α → β) (bs : List Byte) : PortRead β :=
  match rd bs with
  | .ok (a, r) => .ok (mk a, r)
  | .error e => .error e

/-- Two operands, then the instruction made of them. -/
def rdTwo {α β γ : Type} (rd : List Byte → PortRead α) (rd' : List Byte → PortRead β) (mk : α → β → γ)
    (bs : List Byte) : PortRead γ :=
  match rd bs with
  | .ok (a, r) => rdOne rd' (mk a) r
  | .error e => .error e

/-- The operands of MPSSE.EMIT's command, in the forms of R99 (log entry 3): counts as naturals, then data. -/
def CmdKey.decodeEmit : CmdKey → List Byte → PortRead MCmd
  | .bytesW o, r => rdTwo rdNat rdBytes (MCmd.bytesW o) r
  | .bytesR o, r => rdOne rdNat (MCmd.bytesR o) r
  | .bitsW o, r => rdTwo rdNat rdByte (MCmd.bitsW o) r
  | .bitsR o, r => rdOne rdNat (MCmd.bitsR o) r
  | .tms o, r => rdTwo rdNat rdByte (MCmd.tms o) r
  | .pset o, r => rdTwo rdByte rdByte (MCmd.pset o) r
  | .noarg o, r => .ok (.noarg o, r)
  | .setDiv, r => rdOne rdNat MCmd.setDiv r
  | .odCfg, r => rdTwo rdByte rdByte MCmd.odCfg r

/-- MPSSE.EMIT's operand at the port: the command's opcode byte, then its operands; an opcode byte outside R93 names a
command outside the set and has none. -/
def rdMCmd : List Byte → PortRead MCmd
  | [] => .error .truncated
  | op :: r =>
    match CmdKey.ofOpcode op with
    | some k => k.decodeEmit r
    | none => .ok (.unknown op, r)

/-- The bytes of MPSSE.EMIT's operand at the port. -/
def encMCmd : MCmd → List Byte
  | .bytesW o n d => (CmdKey.bytesW o).opcode :: (le32 n ++ encBytes d)
  | .bytesR o n => (CmdKey.bytesR o).opcode :: le32 n
  | .bitsW o k d => (CmdKey.bitsW o).opcode :: (le32 k ++ [d])
  | .bitsR o k => (CmdKey.bitsR o).opcode :: le32 k
  | .tms o m d => (CmdKey.tms o).opcode :: (le32 m ++ [d])
  | .pset o v d => [(CmdKey.pset o).opcode, v, d]
  | .noarg o => [(CmdKey.noarg o).opcode]
  | .setDiv d => CmdKey.setDiv.opcode :: le32 d
  | .odCfg l h => [CmdKey.odCfg.opcode, l, h]
  | .unknown op => [op]

/-- The operands of a host operation (R98) at the port, and the bytes after the request. -/
def HostOp.decodeOperands : HostOp → List Byte → PortRead Instr
  | .qEnq, r => rdOne rdByte Instr.qEnq r
  | .qEnqs, r => rdOne rdBytes Instr.qEnqs r
  | .qFlush, r => .ok (.qFlush, r)
  | .qRead, r => rdOne rdNat Instr.qRead r
  | .qCount, r => .ok (.qCount, r)
  | .clkConfigure, r => rdOne rdHertz Instr.clkConfigure r
  | .tapNext, r => rdTwo rdTap rdBool Instr.tapNext r
  | .tapPath, r => rdTwo rdTap rdTap Instr.tapPath r
  | .tapGoto, r => rdOne rdTap Instr.tapGoto r
  | .jtagReset, r => .ok (.jtagReset, r)
  | .jtagScanIr, r => rdTwo rdNat rdBytes Instr.jtagScanIr r
  | .jtagScanDr, r => rdTwo rdNat rdBytes Instr.jtagScanDr r
  | .jtagSetEndIr, r => rdOne rdTap Instr.jtagSetEndIr r
  | .jtagSetEndDr, r => rdOne rdTap Instr.jtagSetEndDr r
  | .spiAssert, r => .ok (.spiAssert, r)
  | .spiClear, r => .ok (.spiClear, r)
  | .spiTransact, r => rdTwo rdNat rdBytes Instr.spiTransact r
  | .spiWrite, r => rdTwo rdNat rdBytes Instr.spiWrite r
  | .spiRead, r => rdOne rdNat Instr.spiRead r
  | .i2cStart, r => .ok (.i2cStart, r)
  | .i2cRstart, r => .ok (.i2cRstart, r)
  | .i2cStop, r => .ok (.i2cStop, r)
  | .i2cWriteByte, r => rdOne rdByte Instr.i2cWriteByte r
  | .i2cReadByte, r => rdOne rdBool Instr.i2cReadByte r
  | .i2cXread, r => rdTwo rdByte rdNat Instr.i2cXread r
  | .i2cXwrite, r => rdTwo rdByte rdBytes Instr.i2cXwrite r
  | .mpsseSync, r => .ok (.mpsseSync, r)
  | .jtagOpen, r => rdOne rdHertz Instr.jtagOpen r
  | .spiOpen, r => rdOne rdHertz Instr.spiOpen r
  | .i2cOpen, r => rdOne rdHertz Instr.i2cOpen r
  | .close, r => .ok (.close, r)
  | .mpsseEmit, r => rdOne rdMCmd Instr.mpsseEmit r

/-- The host port's decoder: the request at the front, and the bytes after it (R98). -/
def decodeHost : List Byte → PortRead Instr
  | [] => .error .truncated
  | op :: r =>
    match HostOp.ofOpsel op with
    | some h => h.decodeOperands r
    | none => .error (.unknownOpsel op)

/-- The bytes of a host operation at the port; nothing for a Level M command. -/
def encodeHost : Instr → List Byte
  | .qEnq b => HostOp.qEnq.opsel :: ([b])
  | .qEnqs bs => HostOp.qEnqs.opsel :: (encBytes bs)
  | .qFlush => [HostOp.qFlush.opsel]
  | .qRead n => HostOp.qRead.opsel :: (le32 n)
  | .qCount => [HostOp.qCount.opsel]
  | .clkConfigure hz => HostOp.clkConfigure.opsel :: (le32 hz.toNat)
  | .tapNext t b => HostOp.tapNext.opsel :: ([encTap t] ++ [encBool b])
  | .tapPath src dst => HostOp.tapPath.opsel :: ([encTap src] ++ [encTap dst])
  | .tapGoto dst => HostOp.tapGoto.opsel :: ([encTap dst])
  | .jtagReset => [HostOp.jtagReset.opsel]
  | .jtagScanIr n out => HostOp.jtagScanIr.opsel :: (le32 n ++ encBytes out)
  | .jtagScanDr n out => HostOp.jtagScanDr.opsel :: (le32 n ++ encBytes out)
  | .jtagSetEndIr t => HostOp.jtagSetEndIr.opsel :: ([encTap t])
  | .jtagSetEndDr t => HostOp.jtagSetEndDr.opsel :: ([encTap t])
  | .spiAssert => [HostOp.spiAssert.opsel]
  | .spiClear => [HostOp.spiClear.opsel]
  | .spiTransact n out => HostOp.spiTransact.opsel :: (le32 n ++ encBytes out)
  | .spiWrite n out => HostOp.spiWrite.opsel :: (le32 n ++ encBytes out)
  | .spiRead n => HostOp.spiRead.opsel :: (le32 n)
  | .i2cStart => [HostOp.i2cStart.opsel]
  | .i2cRstart => [HostOp.i2cRstart.opsel]
  | .i2cStop => [HostOp.i2cStop.opsel]
  | .i2cWriteByte v => HostOp.i2cWriteByte.opsel :: ([v])
  | .i2cReadByte ack => HostOp.i2cReadByte.opsel :: ([encBool ack])
  | .i2cXread addr count => HostOp.i2cXread.opsel :: ([addr] ++ le32 count)
  | .i2cXwrite addr data => HostOp.i2cXwrite.opsel :: ([addr] ++ encBytes data)
  | .mpsseSync => [HostOp.mpsseSync.opsel]
  | .jtagOpen hz => HostOp.jtagOpen.opsel :: (le32 hz.toNat)
  | .spiOpen hz => HostOp.spiOpen.opsel :: (le32 hz.toNat)
  | .i2cOpen hz => HostOp.i2cOpen.opsel :: (le32 hz.toNat)
  | .close => [HostOp.close.opsel]
  | .mpsseEmit cmd => HostOp.mpsseEmit.opsel :: (encMCmd cmd)
  | .outBytesWpMsb .. => []
  | .outBytesWnMsb .. => []
  | .outBytesWpLsb .. => []
  | .outBytesWnLsb .. => []
  | .outBitsWpMsb .. => []
  | .outBitsWnMsb .. => []
  | .outBitsWpLsb .. => []
  | .outBitsWnLsb .. => []
  | .inBytesRpMsb .. => []
  | .inBytesRnMsb .. => []
  | .inBytesRpLsb .. => []
  | .inBytesRnLsb .. => []
  | .inBitsRpMsb .. => []
  | .inBitsRnMsb .. => []
  | .inBitsRpLsb .. => []
  | .inBitsRnLsb .. => []
  | .ioBytesWnRpMsb .. => []
  | .ioBytesWpRnMsb .. => []
  | .ioBytesWnRpLsb .. => []
  | .ioBytesWpRnLsb .. => []
  | .ioBitsWnRpMsb .. => []
  | .ioBitsWpRnMsb .. => []
  | .ioBitsWnRpLsb .. => []
  | .ioBitsWpRnLsb .. => []
  | .tmsWp .. => []
  | .tmsWn .. => []
  | .tmsrWpRp .. => []
  | .tmsrWnRp .. => []
  | .tmsrWpRn .. => []
  | .tmsrWnRn .. => []
  | .setLow .. => []
  | .getLow => []
  | .setHigh .. => []
  | .getHigh => []
  | .loopOn => []
  | .loopOff => []
  | .setDiv .. => []
  | .sendImm => []
  | .div5Off => []
  | .div5On => []
  | .ph3On => []
  | .ph3Off => []
  | .adaptOn => []
  | .adaptOff => []
  | .odCfg .. => []
  | .bogus => []

/-- The bytes of an instruction: the command stream's for Level M (R81), the host port's for Level H (R98). -/
def encode (i : Instr) : List Byte :=
  match i.level with
  | .m => encodeCmd i
  | .h => encodeHost i

/-- Decoding at one level: the instruction at the front and the bytes after it, if there is one. -/
def decode (l : Level) (bs : List Byte) : Option (Instr × List Byte) :=
  match l with
  | .m =>
    match decodeCmd bs with
    | .cmd i r => some (i, r)
    | .unknown .. => none
    | .short => none
  | .h =>
    match decodeHost bs with
    | .ok p => some p
    | .error _ => none

/-! ## The opcode table's words -/

/-- The low `k` bytes of a number, low byte first. -/
def wordBytes : Nat → Nat → List Byte
  | 0, _ => []
  | k + 1, w => BitVec.ofNat 8 w :: wordBytes k (w / 256)

/-- The bytes of a table word, followed by zeros enough for the operands of any instruction they begin. -/
def tableBytes (nbits w : Nat) : List Byte :=
  wordBytes ((nbits + 7) / 8) w ++ List.replicate (16 + w / 256 % 65536) 0

/-- What a table word is: a command of Level M, else a host operation. Six byte values are both an opcode (R93) and an
`OPSEL` (R98); there the Level M command is taken (log entry 2). -/
def tableFetch (nbits w : Nat) : Option (Instr × List Byte) :=
  match decode .m (tableBytes nbits w) with
  | some p => some p
  | none => decode .h (tableBytes nbits w)

/-- The instruction the decoder reads from a word of spec/opcode_table.json, with zeros above its bits. -/
def decodeTableWord (nbits w : Nat) : Option Instr := (tableFetch nbits w).map Prod.fst

/-- The bytes a table word's instruction takes, operand zeros included. -/
def tableInstrBytes (nbits w : Nat) : List Byte :=
  match tableFetch nbits w with
  | some (_, r) => (tableBytes nbits w).take ((tableBytes nbits w).length - r.length)
  | none => tableBytes nbits w

end Sys2Proof
end

