-- ==== Sys2Proof/Machine/Operands.lean ====
section
/-! DEFINITION. Operand forms: the pin map (spec/10_state.md R29, PINMAP), bit orders (20_memory.md R54 to R57), the split
of a bit count into commands (43_jtag.md R151, 44_spi.md R167), the packing of captured bits (30_encoding.md R96), and the
decoding of responses (43_jtag.md R155, 44_spi.md R168). -/

namespace Sys2Proof.Machine

/-! ## Pins (R29) -/

/-- The clock pin: TCK, SK, SCL. -/
def clockBit : Nat := 0
/-- The data-out pin: TDI, DO, the driving side of SDA. -/
def dataOutBit : Nat := 1
/-- The data-in pin: TDO, DI, the sensing side of SDA. -/
def dataInBit : Nat := 2
/-- The TMS pin, or chip select. -/
def selectBit : Nat := 3

/-- `CS_MASK` (R29). -/
def csMask : Byte := 0x08
/-- `SCL_MASK` (R180). -/
def sclMask : Byte := 0x01
/-- `SDA_MASK` (R180). -/
def sdaMask : Byte := 0x02
/-- `IDLE_MASK`, the OR of the two bus pins (R180; 90_conflicts.md C4). -/
def idleMask : Byte := sclMask ||| sdaMask
/-- The pins an open of JTAG or SPI makes outputs: clock, data-out, TMS or select (R207, R208). -/
def outputMask : Byte := 0x0B
/-- The general-purpose pins, "never changed by the block" (R29). -/
def upperMask : Byte := 0xF0

/-- A byte with one bit set to a level. -/
def putBit (v : Byte) (i : Nat) (b : Bool) : Byte :=
  if b then v ||| (1#8 <<< i) else v &&& ~~~(1#8 <<< i)

/-- The I2C bus's data line as the master treats it (R180): pulled low, or released. -/
inductive Sda
  | low | rel
  deriving DecidableEq, Repr

/-! ## Bit order -/

/-- The bits of a byte in the order they travel (R82, R84). -/
def bitsOf : BitOrder → Byte → List Bool
  | .lsb, d => (List.range 8).map d.getLsbD
  | .msb, d => ((List.range 8).map d.getLsbD).reverse

/-- One captured bit enters the response byte: at bit 0, moving up, MSB first; at bit 7, moving down, LSB first (R96). -/
def shiftIn : BitOrder → Byte → Bool → Byte
  | .msb, a, b => putBit (a <<< 1) 0 b
  | .lsb, a, b => putBit (a >>> 1) 7 b

/-- A response byte after the captured bits have entered, from what it held before (R96). -/
def capture (ord : BitOrder) (stale : Byte) (bits : List Bool) : Byte := bits.foldl (shiftIn ord) stale

/-- Control bits packed into a byte, the first in bit 0 (R54, R86); the bits above are 0. -/
def packLsb : List Bool → Byte
  | [] => 0
  | b :: bs => putBit (packLsb bs <<< 1) 0 b

/-! ## Splitting a bit count -/

/-- `ceil(n/8)` (R10). -/
def ceil8 (n : Nat) : Nat := (n + 7) / 8

/-- `B` of a JTAG scan: bytes of the byte-oriented command (R151). -/
def jtagBytes (n : Nat) : Nat := (n - 1) / 8
/-- `r` of a JTAG scan: bits of the bit-oriented command (R151). -/
def jtagBits (n : Nat) : Nat := (n - 1) % 8
/-- `B` of an SPI transfer (R167). -/
def spiBytes (n : Nat) : Nat := n / 8
/-- `r` of an SPI transfer (R167). -/
def spiBits (n : Nat) : Nat := n % 8

/-- Responses one bit-oriented command adds: `(r > 0 ? 1 : 0)` (R152, R168). -/
def partCount (r : Nat) : Nat := if r = 0 then 0 else 1

/-- Byte `i` of a buffer, 0 past its end. -/
def byteOf (bs : List Byte) (i : Nat) : Byte := bs.getD i 0

/-- The low `r` bits of a byte: `x & ((1 << r) - 1)` (R152 step 3). -/
def lowBits (r : Nat) (x : Byte) : Byte := x &&& ((1#8 <<< r) - 1#8)

/-- The top `r` bits of a byte in place: `x & ((0xFF << (8 - r)) & 0xFF)` (R167). -/
def topBits (r : Nat) (x : Byte) : Byte := x &&& (0xFF#8 <<< (8 - r))

/-- The data byte of the fused last bit: `(last << 7) | 0x01` (R152 step 4). -/
def fusedByte (last : Bool) : Byte := if last then 0x81 else 0x01

/-! ## Decoding responses -/

/-- The decode of a scan's response (R155). -/
def scanDecode (n : Nat) (resp : List Byte) : List Byte :=
  let B := jtagBytes n
  let r := jtagBits n
  let p : Byte := if r = 0 then 0 else byteOf resp B >>> (8 - r)
  let last := (byteOf resp (B + partCount r)).getLsbD 7
  resp.take B ++ [putBit p r last]

/-- The decode of an SPI transfer's response (R168, R170). -/
def spiDecode (n : Nat) (resp : List Byte) : List Byte :=
  let B := spiBytes n
  let r := spiBits n
  if r = 0 then resp.take B else resp.take B ++ [byteOf resp B <<< (8 - r)]

/-- The acknowledge bit of a response byte, true for ACK: "true iff the sampled bit is 0" (R186). -/
def ackOf (resp : List Byte) : Bool := !(byteOf resp 0).getLsbD 0

end Sys2Proof.Machine
end

