-- ==== Sys2Proof/Machine/Tap.lean ====
section
/-! DEFINITION. The TAP tables (spec/42_tap.md): the successor graph `NEXT` (R131), replay (R133), the path table `PATH`
entry by entry as the spec prints it (R134), the control bits of a path (R136), and their packing into TMS commands
(R138). -/

namespace Sys2Proof

/-- `NEXT[s][b]` (R131, R132). -/
def Tap.next : Tap → Bool → Tap
  | .reset, false => .idle
  | .reset, true => .reset
  | .idle, false => .idle
  | .idle, true => .drSelect
  | .drSelect, false => .drCapture
  | .drSelect, true => .irSelect
  | .drCapture, false => .drShift
  | .drCapture, true => .drExit1
  | .drShift, false => .drShift
  | .drShift, true => .drExit1
  | .drExit1, false => .drPause
  | .drExit1, true => .drUpdate
  | .drPause, false => .drPause
  | .drPause, true => .drExit2
  | .drExit2, false => .drShift
  | .drExit2, true => .drUpdate
  | .drUpdate, false => .idle
  | .drUpdate, true => .drSelect
  | .irSelect, false => .irCapture
  | .irSelect, true => .reset
  | .irCapture, false => .irShift
  | .irCapture, true => .irExit1
  | .irShift, false => .irShift
  | .irShift, true => .irExit1
  | .irExit1, false => .irPause
  | .irExit1, true => .irUpdate
  | .irPause, false => .irPause
  | .irPause, true => .irExit2
  | .irExit2, false => .irShift
  | .irExit2, true => .irUpdate
  | .irUpdate, false => .idle
  | .irUpdate, true => .drSelect

/-- `replay(s, bits)` (R133). -/
def Tap.replay : Tap → List Bool → Tap
  | s, [] => s
  | s, b :: bs => Tap.replay (s.next b) bs

/-- `PATH`: the states visited after `from`, ending with `to` (R134); none outside the table's domain. -/
def Tap.path : Tap → Tap → Option (List Tap)
  | .reset, .reset => some []
  | .reset, .idle => some [.idle]
  | .reset, .drPause => some [.idle, .drSelect, .drCapture, .drExit1, .drPause]
  | .reset, .irPause => some [.idle, .drSelect, .irSelect, .irCapture, .irExit1, .irPause]
  | .reset, .drShift => some [.idle, .drSelect, .drCapture, .drShift]
  | .reset, .irShift => some [.idle, .drSelect, .irSelect, .irCapture, .irShift]
  | .idle, .reset => some [.drSelect, .irSelect, .reset]
  | .idle, .idle => some []
  | .idle, .drPause => some [.drSelect, .drCapture, .drExit1, .drPause]
  | .idle, .irPause => some [.drSelect, .irSelect, .irCapture, .irExit1, .irPause]
  | .idle, .drShift => some [.drSelect, .drCapture, .drShift]
  | .idle, .irShift => some [.drSelect, .irSelect, .irCapture, .irShift]
  | .drPause, .reset => some [.drExit2, .drUpdate, .drSelect, .irSelect, .reset]
  | .drPause, .idle => some [.drExit2, .drUpdate, .idle]
  | .drPause, .drPause => some []
  | .drPause, .irPause => some [.drExit2, .drUpdate, .drSelect, .irSelect, .irCapture, .irExit1, .irPause]
  | .drPause, .drShift => some [.drExit2, .drShift]
  | .drPause, .irShift => some [.drExit2, .drUpdate, .drSelect, .irSelect, .irCapture, .irShift]
  | .irPause, .reset => some [.irExit2, .irUpdate, .drSelect, .irSelect, .reset]
  | .irPause, .idle => some [.irExit2, .irUpdate, .idle]
  | .irPause, .drPause => some [.irExit2, .irUpdate, .drSelect, .drCapture, .drExit1, .drPause]
  | .irPause, .irPause => some []
  | .irPause, .drShift => some [.irExit2, .irUpdate, .drSelect, .drCapture, .drShift]
  | .irPause, .irShift => some [.irExit2, .irShift]
  | .drShift, .reset => some [.drExit1, .drUpdate, .drSelect, .irSelect, .reset]
  | .drShift, .idle => some [.drExit1, .drUpdate, .idle]
  | .drShift, .drPause => some [.drExit1, .drPause]
  | .drShift, .irPause => some [.drExit1, .drUpdate, .drSelect, .irSelect, .irCapture, .irExit1, .irPause]
  | .drShift, .drShift => some []
  | .drShift, .irShift => some [.drExit1, .drUpdate, .drSelect, .irSelect, .irCapture, .irShift]
  | .irShift, .reset => some [.irExit1, .irUpdate, .drSelect, .irSelect, .reset]
  | .irShift, .idle => some [.irExit1, .irUpdate, .idle]
  | .irShift, .drPause => some [.irExit1, .irUpdate, .drSelect, .drCapture, .drExit1, .drPause]
  | .irShift, .irPause => some [.irExit1, .irPause]
  | .irShift, .drShift => some [.irExit1, .irUpdate, .drSelect, .drCapture, .drShift]
  | .irShift, .irShift => some []
  | .drExit1, .reset => some [.drUpdate, .drSelect, .irSelect, .reset]
  | .drExit1, .idle => some [.drUpdate, .idle]
  | .drExit1, .drPause => some [.drPause]
  | .drExit1, .irPause => some [.drUpdate, .drSelect, .irSelect, .irCapture, .irExit1, .irPause]
  | .drExit1, .drShift => some [.drPause, .drExit2, .drShift]
  | .drExit1, .irShift => some [.drUpdate, .drSelect, .irSelect, .irCapture, .irShift]
  | .irExit1, .reset => some [.irUpdate, .drSelect, .irSelect, .reset]
  | .irExit1, .idle => some [.irUpdate, .idle]
  | .irExit1, .drPause => some [.irUpdate, .drSelect, .drCapture, .drExit1, .drPause]
  | .irExit1, .irPause => some [.irPause]
  | .irExit1, .drShift => some [.irUpdate, .drSelect, .drCapture, .drShift]
  | .irExit1, .irShift => some [.irPause, .irExit2, .irShift]
  | _, _ => none

/-- `FROM` of R134: the sources the path table records. -/
def Tap.pathSources : List Tap := [.reset, .idle, .drPause, .irPause, .drShift, .irShift, .drExit1, .irExit1]

/-- `TO` of R134: the targets the path table records. -/
def Tap.pathTargets : List Tap := [.reset, .idle, .drPause, .irPause, .drShift, .irShift]

/-- The bit of one step: the test for 0 comes first (R136). -/
def Tap.stepBit (s t : Tap) : Option Bool :=
  if s.next false = t then some false else if s.next true = t then some true else none

/-- The bits that walk from a state through a list of states (R136). -/
def Tap.bitsOfPath : Tap → List Tap → Option (List Bool)
  | _, [] => some []
  | s, t :: ts =>
    match s.stepBit t, Tap.bitsOfPath t ts with
    | some b, some bs => some (b :: bs)
    | _, _ => none

/-- `bits(from, to)` (R135, R136); none is `NoPath`. -/
def Tap.pathBits (src dst : Tap) : Option (List Bool) :=
  match Tap.path src dst with
  | some p => src.bitsOfPath p
  | none => none

namespace Machine

/-- Control bits one TMS command carries at most (R54, R86). -/
def tmsChunk : Nat := 7

/-- The TMS commands of a bit sequence, chunk by chunk; the first argument bounds the number of chunks (R138). -/
def tmsChunks : Nat → List Bool → List Byte
  | 0, _ => []
  | _ + 1, [] => []
  | k + 1, b :: bs =>
    encTms Config.opmap.tmsWn ((b :: bs).take tmsChunk).length (packLsb ((b :: bs).take tmsChunk))
      ++ tmsChunks k ((b :: bs).drop tmsChunk)

/-- `TMS_SEQ(bits)`: nothing for no bits, else chunks of 7 in the falling-edge variant, data-out held low (R138). -/
def tmsSeq (bits : List Bool) : List Byte := tmsChunks bits.length bits

end Machine

end Sys2Proof
end

