-- ==== Sys2Proof/Machine/Engine.lean ====
section
/-! DEFINITION. What the downstream engine's commands share (spec/47_mpsse_shift_opcodes.md R221, R222;
48_mpsse_pin_config_opcodes.md; 30_encoding.md R96): pin levels, one clock pulse with the target's TAP behind it, the
shifts built from pulses, pin sets and pin reads, and the echo of an unrecognised opcode. -/

namespace Sys2Proof.Machine

/-! ## Pins -/

/-- The pins of a byte that are driven: outputs, but for an open-drain pin at value 1, which floats (R260, R274). -/
def drivenMask (val dir od : Byte) : Byte := dir &&& ~~~(od &&& val)

/-- The level driven on a low pin; none when it floats. -/
def Engine.lowLevel (e : Engine) (i : Nat) : Option Bool :=
  if (drivenMask e.lowVal e.lowDir e.odLow).getLsbD i then some (e.lowVal.getLsbD i) else none

/-- The data-out level last driven (R170, X25). -/
def Engine.dataOut (e : Engine) : Bool := e.lowVal.getLsbD dataOutBit

/-- The TMS level last driven (R221: a data shift keeps it). -/
def Engine.tmsLevel (e : Engine) : Bool := e.lowVal.getLsbD selectBit

/-- The clock's idle level: "the value last written to it by a pin-set command" (R221). -/
def Engine.clockIdle (e : Engine) : Bool := e.lowVal.getLsbD clockBit

/-- The target's TAP takes a free value: no rule fixes what it saw (log entries 17 and 18). -/
def Chan.loseTap (c : Chan) : Chan := { c with target := Config.freeTap c.fresh, fresh := c.fresh + 1 }

/-- The target's TAP when the engine's pins change outside a clock pulse: a rising edge of TCK advances it by a TMS level
that stands still; an edge that may or may not be one leaves a free value (R130, R329; log entry 18). -/
def Chan.movePins (c : Chan) (e : Engine) : Chan :=
  match c.eng.lowLevel clockBit, e.lowLevel clockBit with
  | some false, some true =>
    match c.eng.lowLevel selectBit, e.lowLevel selectBit with
    | some a, some b =>
      if a = b then { c with eng := e, target := c.target.next a } else Chan.loseTap { c with eng := e }
    | none, _ => Chan.loseTap { c with eng := e }
    | some _, none => Chan.loseTap { c with eng := e }
  | none, some true => Chan.loseTap { c with eng := e }
  | some false, none => Chan.loseTap { c with eng := e }
  | some false, some false => { c with eng := e }
  | some true, _ => { c with eng := e }
  | none, some false => { c with eng := e }
  | none, none => { c with eng := e }

/-! ## One clock pulse -/

/-- The level a sample of the data-in pin finds: loopback feeds data-out back inside the chip (R221, R264); a pin driven by
the engine itself reads its own level; otherwise the environment's next level (X2, log entry 13). -/
def Chan.sampleDin (dout : Bool) (c : Chan) : Bool × Chan :=
  if c.eng.loopback then (dout, c)
  else
    match c.eng.lowLevel dataInBit with
    | some v => (v, c)
    | none =>
      match c.din with
      | b :: rest => (b, { c with din := rest })
      | [] => (Config.freeDataIn c.fresh, { c with fresh := c.fresh + 1 })

/-- The sample of one pulse: none when the command does not read. -/
def Chan.sample (r : Option Edge) (dout : Bool) (c : Chan) : Option Bool × Chan :=
  match r with
  | none => (none, c)
  | some _ => (some (c.sampleDin dout).1, (c.sampleDin dout).2)

/-- A control level reaches the target's TAP well defined: TCK and TMS are driven, and TMS does not change on the rising
edge that samples it (R222; log entry 17). For a command that writes on the rising edge, the level before the pulse and
the pulse's own meet there, whatever the clock's idle level: DESIGN CHOICE for idle level 1 (log entry 17). -/
def Engine.tapSees (e : Engine) (tms : Bool) (w : Option Edge) : Bool :=
  e.lowDir.getLsbD clockBit && !e.odLow.getLsbD clockBit
    && e.lowDir.getLsbD selectBit && !(e.odLow.getLsbD selectBit && tms)
    && ((tms == e.tmsLevel) || !(w == some .rising))

/-- One TCK pulse at the target's TAP: one successor step (R130, R159), or a free value. -/
def Chan.clockTap (tms : Bool) (w : Option Edge) (c : Chan) : Chan :=
  if c.eng.tapSees tms w then { c with target := c.target.next tms } else c.loseTap

/-- One clock pulse with the data-out and TMS levels given, changing on edge `w`, sampling on edge `r` (R221, R222). -/
def Chan.pulse (w r : Option Edge) (dout tms : Bool) (c : Chan) : Option Bool × Chan :=
  let p := c.sample r dout
  let k := p.2.clockTap tms w
  (p.1,
    { k with
      eng := { k.eng with lowVal := putBit (putBit k.eng.lowVal dataOutBit dout) selectBit tms }
      wire := k.wire ++ [.pulse
        { idle := c.eng.clockIdle
          dout := dout
          tms := tms
          write := w
          read := r
          din := p.1
          threePhase := c.eng.threePhase
          adaptive := c.eng.adaptive }] })

/-- A run of pulses, one for each pair of data-out and TMS levels; the samples in order. -/
def Chan.pulses (w r : Option Edge) : List (Bool × Bool) → Chan → List Bool × Chan
  | [], c => ([], c)
  | x :: xs, c =>
    let p := c.pulse w r x.1 x.2
    let q := Chan.pulses w r xs p.2
    (p.1.toList ++ q.1, q.2)

/-- Response bytes the chip gathers (R73, R273). -/
def Chan.gather (bs : List Byte) (c : Chan) : Chan :=
  { c with eng := { c.eng with gathered := c.eng.gathered ++ bs } }

/-! ## Shifts -/

/-- The pulses of a data shift: TMS keeps its level (R221). -/
def Chan.dataPulses (w r : Option Edge) (bits : List Bool) (c : Chan) : List Bool × Chan :=
  c.pulses w r (bits.map fun b => (b, c.eng.tmsLevel))

/-- Data bytes out, one after the other; the captured bytes in order when the command reads (R96). -/
def Chan.shiftBytes (ord : BitOrder) (w r : Option Edge) : List Byte → Chan → List Byte × Chan
  | [], c => ([], c)
  | d :: ds, c =>
    let p := c.dataPulses w r (bitsOf ord d)
    let q := Chan.shiftBytes ord w r ds p.2
    (capture ord 0 p.1 :: q.1, q.2)

/-- Bytes in: the data-out pin is not changed (R231 to R234). -/
def Chan.readBytes (ord : BitOrder) (r : Edge) : Nat → Chan → List Byte × Chan
  | 0, c => ([], c)
  | n + 1, c =>
    let p := c.dataPulses none (some r) (List.replicate 8 c.eng.dataOut)
    let q := Chan.readBytes ord r n p.2
    (capture ord 0 p.1 :: q.1, q.2)

/-- The number of bits a bit-oriented command moves: its `k` in range, else a free value of 1 to 8 (R84; log entry 16). -/
def Chan.bitCount (k : Nat) (c : Chan) : Nat × Chan :=
  if 1 ≤ k ∧ k ≤ 8 then (k, c) else ((Config.freeBitCount c.fresh).val + 1, { c with fresh := c.fresh + 1 })

/-- The number of clocks a TMS command makes: its `m` in range, else a free value of 1 to 7 (R86; log entry 16). -/
def Chan.tmsCount (m : Nat) (c : Chan) : Nat × Chan :=
  if 1 ≤ m ∧ m ≤ 7 then (m, c) else ((Config.freeTmsCount c.fresh).val + 1, { c with fresh := c.fresh + 1 })

/-- The response byte of a bit-oriented or TMS read, from the samples and the stale bits (R96, X3; log entry 15). -/
def Chan.gatherBits (ord : BitOrder) (bits : List Bool) (c : Chan) : Chan :=
  Chan.gather [capture ord (Config.staleBits c.fresh) bits] { c with fresh := c.fresh + 1 }

/-- `OUT.BYTES.*` (R223 to R226). -/
def Chan.outBytes (ord : BitOrder) (w : Edge) (d : List Byte) (c : Chan) : Chan :=
  (c.shiftBytes ord (some w) none d).2

/-- `IN.BYTES.*` (R231 to R234). -/
def Chan.inBytes (ord : BitOrder) (r : Edge) (n : Nat) (c : Chan) : Chan :=
  let p := c.readBytes ord r n
  p.2.gather p.1

/-- `IO.BYTES.*` (R239 to R242). -/
def Chan.ioBytes (ord : BitOrder) (w r : Edge) (d : List Byte) (c : Chan) : Chan :=
  let p := c.shiftBytes ord (some w) (some r) d
  p.2.gather p.1

/-- `OUT.BITS.*` (R227 to R230): the first `k` bits in the command's order. -/
def Chan.outBits (ord : BitOrder) (w : Edge) (k : Nat) (d : Byte) (c : Chan) : Chan :=
  let n := c.bitCount k
  (n.2.dataPulses (some w) none ((bitsOf ord d).take n.1)).2

/-- `IN.BITS.*` (R235 to R238). -/
def Chan.inBits (ord : BitOrder) (r : Edge) (k : Nat) (c : Chan) : Chan :=
  let n := c.bitCount k
  let p := n.2.dataPulses none (some r) (List.replicate n.1 c.eng.dataOut)
  p.2.gatherBits ord p.1

/-- `IO.BITS.*` (R243 to R246). -/
def Chan.ioBits (ord : BitOrder) (w r : Edge) (k : Nat) (d : Byte) (c : Chan) : Chan :=
  let n := c.bitCount k
  let p := n.2.dataPulses (some w) (some r) ((bitsOf ord d).take n.1)
  p.2.gatherBits ord p.1

/-- The pulses of a TMS command: bit 7 of the data byte on data-out throughout, the control bits on TMS, bit 0 first
(R86, R222). -/
def tmsPulses (m : Nat) (d : Byte) : List (Bool × Bool) :=
  ((bitsOf .lsb d).take m).map fun t => (d.getLsbD 7, t)

/-- `TMS.*` (R247, R248). -/
def Chan.tmsOut (w : Edge) (m : Nat) (d : Byte) (c : Chan) : Chan :=
  let n := c.tmsCount m
  (n.2.pulses (some w) none (tmsPulses n.1 d)).2

/-- `TMSR.*` (R249 to R252): the response is filled as by an LSB-first bit read (R96). -/
def Chan.tmsIo (w r : Edge) (m : Nat) (d : Byte) (c : Chan) : Chan :=
  let n := c.tmsCount m
  let p := n.2.pulses (some w) (some r) (tmsPulses n.1 d)
  p.2.gatherBits .lsb p.1

/-! ## Pins set and read -/

/-- The external levels of the pins at one pin read (log entry 14). -/
def Chan.outside (c : Chan) : Byte × Chan :=
  match c.pins with
  | p :: rest => (p, { c with pins := rest })
  | [] => (Config.freePins c.fresh, { c with fresh := c.fresh + 1 })

/-- The levels of eight pins: driven pins at their value, the others as the environment has them (R261). -/
def pinLevels (val dir od ext : Byte) : Byte :=
  (val &&& drivenMask val dir od) ||| (ext &&& ~~~drivenMask val dir od)

/-- The bus as a pin read clocks it (R69): the levels and latches held, the number of pulses a free value, at least one
(log entry 42). -/
def Chan.readClocks (c : Chan) : Chan :=
  let n := Config.freeReadClocks c.fresh + 1
  let levels := List.replicate n (c.eng.dataOut, c.eng.tmsLevel)
  let d := (Chan.pulses none none levels { c with fresh := c.fresh + 1 }).2
  { c with target := d.target, wire := d.wire, fresh := d.fresh }

/-- A pin read: eight pins sampled, the bus clocked, one response byte (R69, R261, R263). -/
def Chan.readPins (val dir od : Byte) (c : Chan) : Chan :=
  let p := c.outside
  p.2.readClocks.gather [pinLevels val dir od p.1]

/-- The low byte's latches take value and direction (R260). -/
def Chan.pinsLow (val dir : Byte) (c : Chan) : Chan :=
  Chan.movePins { c with wire := c.wire ++ [WireEvt.low val dir] } { c.eng with lowVal := val, lowDir := dir }

/-- The high byte's latches take value and direction (R262). -/
def Chan.pinsHigh (val dir : Byte) (c : Chan) : Chan :=
  { c with wire := c.wire ++ [WireEvt.high val dir], eng := { c.eng with highVal := val, highDir := dir } }

/-! ## Unrecognised opcodes -/

/-- The engine's answer to an opcode it does not recognise: the bad-command marker and the opcode (R95, R96, R277). -/
def Chan.echo (op : Byte) (c : Chan) : Chan := c.gather [c.marker, op]

/-- A gated command on a chip that lacks it: its opcode is unrecognised and its operand bytes are opcodes of their own
(R97, R277; log entry 29). -/
def Chan.gated (g : Gate) (op : Byte) (operands : List Byte) (act : Chan → Chan) (c : Chan) : Chan :=
  if c.sup.opens g then act c else Chan.echo op { c with tx := operands ++ c.tx }

end Sys2Proof.Machine
end

