-- ==== Sys2Proof/Machine/PinCmds.lean ====
section
/-! DEFINITION. The pin, clock, mode and flow commands of Level M, executed by the downstream engine
(spec/48_mpsse_pin_config_opcodes.md R260 to R275): `cmd<Name>` is the command's effect on the channel, `exec<Name>` the
instruction's meaning. -/

namespace Sys2Proof.Machine

/-- `SET_LOW` downstream: the low byte takes value and direction (R260). -/
def cmdSetLow (val dir : Byte) (c : Chan) : Chan :=
  c.pinsLow val dir

/-- `SET_LOW` (R260): the engine executes it. -/
def execSetLow (val dir : Byte) (s : State) : Host.Outcome State Fault Refusal :=
  .next { s with chan := cmdSetLow val dir s.chan }

/-- `GET_LOW` downstream: one response byte, the levels of the eight low pins (R261); the bus is clocked (R69). -/
def cmdGetLow (c : Chan) : Chan :=
  c.readPins c.eng.lowVal c.eng.lowDir c.eng.odLow

/-- `GET_LOW` (R261): the engine executes it. -/
def execGetLow (s : State) : Host.Outcome State Fault Refusal :=
  .next { s with chan := cmdGetLow s.chan }

/-- `SET_HIGH` downstream: the high byte takes value and direction (R262). -/
def cmdSetHigh (val dir : Byte) (c : Chan) : Chan :=
  c.pinsHigh val dir

/-- `SET_HIGH` (R262): the engine executes it. -/
def execSetHigh (val dir : Byte) (s : State) : Host.Outcome State Fault Refusal :=
  .next { s with chan := cmdSetHigh val dir s.chan }

/-- `GET_HIGH` downstream: one response byte, the levels of the eight high pins (R263); the bus is clocked (R69). -/
def cmdGetHigh (c : Chan) : Chan :=
  c.readPins c.eng.highVal c.eng.highDir c.eng.odHigh

/-- `GET_HIGH` (R263): the engine executes it. -/
def execGetHigh (s : State) : Host.Outcome State Fault Refusal :=
  .next { s with chan := cmdGetHigh s.chan }

/-- `LOOP_ON` downstream: data-out is connected to data-in inside the chip (R264). -/
def cmdLoopOn (c : Chan) : Chan :=
  { c with eng := { c.eng with loopback := true } }

/-- `LOOP_ON` (R264): the engine executes it. -/
def execLoopOn (s : State) : Host.Outcome State Fault Refusal :=
  .next { s with chan := cmdLoopOn s.chan }

/-- `LOOP_OFF` downstream: the loopback is removed (R265). -/
def cmdLoopOff (c : Chan) : Chan :=
  { c with eng := { c.eng with loopback := false } }

/-- `LOOP_OFF` (R265): the engine executes it. -/
def execLoopOff (s : State) : Host.Outcome State Fault Refusal :=
  .next { s with chan := cmdLoopOff s.chan }

/-- `SET_DIV` downstream: the divisor in force (R266). -/
def cmdSetDiv (d : Divisor) (c : Chan) : Chan :=
  { c with eng := { c.eng with divisor := d } }

/-- `SET_DIV` (R266): the engine executes it. -/
def execSetDiv (d : Divisor) (s : State) : Host.Outcome State Fault Refusal :=
  .next { s with chan := cmdSetDiv d s.chan }

/-- `SEND_IMM` downstream: the gathered response bytes are handed to the transport now (R273), which brings them to `RX`
in its own time (R68; log entry 32). -/
def cmdSendImm (c : Chan) : Chan :=
  { c with inFlight := c.inFlight ++ c.eng.gathered, eng := { c.eng with gathered := [] } }

/-- `SEND_IMM` (R273): the engine executes it. -/
def execSendImm (s : State) : Host.Outcome State Fault Refusal :=
  .next { s with chan := cmdSendImm s.chan }

/-- `DIV5_OFF` downstream: base 60 MHz; unrecognised on a chip that is not enhanced (R267). -/
def cmdDiv5Off (c : Chan) : Chan :=
  c.gated .enhanced Config.opmap.div5Off []
    fun c => { c with eng := { c.eng with div5 := false } }

/-- `DIV5_OFF` (R267): the engine executes it. -/
def execDiv5Off (s : State) : Host.Outcome State Fault Refusal :=
  .next { s with chan := cmdDiv5Off s.chan }

/-- `DIV5_ON` downstream: base 12 MHz; unrecognised on a chip that is not enhanced (R268). -/
def cmdDiv5On (c : Chan) : Chan :=
  c.gated .enhanced Config.opmap.div5On []
    fun c => { c with eng := { c.eng with div5 := true } }

/-- `DIV5_ON` (R268): the engine executes it. -/
def execDiv5On (s : State) : Host.Outcome State Fault Refusal :=
  .next { s with chan := cmdDiv5On s.chan }

/-- `PH3_ON` downstream: 3-phase clocking; unrecognised on a chip that is not enhanced (R269). -/
def cmdPh3On (c : Chan) : Chan :=
  c.gated .enhanced Config.opmap.ph3On []
    fun c => { c with eng := { c.eng with threePhase := true } }

/-- `PH3_ON` (R269): the engine executes it. -/
def execPh3On (s : State) : Host.Outcome State Fault Refusal :=
  .next { s with chan := cmdPh3On s.chan }

/-- `PH3_OFF` downstream: 2-phase clocking; unrecognised on a chip that is not enhanced (R270). -/
def cmdPh3Off (c : Chan) : Chan :=
  c.gated .enhanced Config.opmap.ph3Off []
    fun c => { c with eng := { c.eng with threePhase := false } }

/-- `PH3_OFF` (R270): the engine executes it. -/
def execPh3Off (s : State) : Host.Outcome State Fault Refusal :=
  .next { s with chan := cmdPh3Off s.chan }

/-- `ADAPT_ON` downstream: adaptive clocking on; unrecognised on a chip that is not enhanced (R271). -/
def cmdAdaptOn (c : Chan) : Chan :=
  c.gated .enhanced Config.opmap.adaptOn []
    fun c => { c with eng := { c.eng with adaptive := true } }

/-- `ADAPT_ON` (R271): the engine executes it. -/
def execAdaptOn (s : State) : Host.Outcome State Fault Refusal :=
  .next { s with chan := cmdAdaptOn s.chan }

/-- `ADAPT_OFF` downstream: adaptive clocking off; unrecognised on a chip that is not enhanced (R272). -/
def cmdAdaptOff (c : Chan) : Chan :=
  c.gated .enhanced Config.opmap.adaptOff []
    fun c => { c with eng := { c.eng with adaptive := false } }

/-- `ADAPT_OFF` (R272): the engine executes it. -/
def execAdaptOff (s : State) : Host.Outcome State Fault Refusal :=
  .next { s with chan := cmdAdaptOff s.chan }

/-- `OD_CFG` downstream: the masked pins become open-drain; unrecognised without open-drain outputs (R274). The masks
replace those of an earlier `OD_CFG`, so that a pin whose bit is 0 is push-pull again: DESIGN CHOICE (log entry 41). -/
def cmdOdCfg (maskL maskH : Byte) (c : Chan) : Chan :=
  c.gated .openDrain Config.opmap.odCfg [maskL, maskH]
    fun c => c.movePins { c.eng with odLow := maskL, odHigh := maskH }

/-- `OD_CFG` (R274): the engine executes it. -/
def execOdCfg (maskL maskH : Byte) (s : State) : Host.Outcome State Fault Refusal :=
  .next { s with chan := cmdOdCfg maskL maskH s.chan }

/-- `BOGUS` downstream: nothing changes; the engine answers `FA AA` (R275). -/
def cmdBogus (c : Chan) : Chan :=
  c.echo Config.opmap.bogus

/-- `BOGUS` (R275): the engine executes it. -/
def execBogus (s : State) : Host.Outcome State Fault Refusal :=
  .next { s with chan := cmdBogus s.chan }

end Sys2Proof.Machine
end

