-- ==== Sys2Proof/Machine/ShiftCmds.lean ====
section
/-! DEFINITION. The shift and TMS commands of Level M, executed by the downstream engine (spec/47_mpsse_shift_opcodes.md
R223 to R252): `cmd<Name>` is the command's effect on the channel, `exec<Name>` the instruction's meaning. -/

namespace Sys2Proof.Machine

/-- `OUT.BYTES.WP.MSB` downstream: out, MSB first (R223). -/
def cmdOutBytesWpMsb (d : List Byte) (c : Chan) : Chan :=
  c.outBytes .msb .rising d

/-- `OUT.BYTES.WP.MSB` (R223): the engine executes it. -/
def execOutBytesWpMsb (d : List Byte) (s : State) : Host.Outcome State Fault Refusal :=
  .next { s with chan := cmdOutBytesWpMsb d s.chan }

/-- `OUT.BYTES.WN.MSB` downstream: out, MSB first (R224). -/
def cmdOutBytesWnMsb (d : List Byte) (c : Chan) : Chan :=
  c.outBytes .msb .falling d

/-- `OUT.BYTES.WN.MSB` (R224): the engine executes it. -/
def execOutBytesWnMsb (d : List Byte) (s : State) : Host.Outcome State Fault Refusal :=
  .next { s with chan := cmdOutBytesWnMsb d s.chan }

/-- `OUT.BYTES.WP.LSB` downstream: out, LSB first (R225). -/
def cmdOutBytesWpLsb (d : List Byte) (c : Chan) : Chan :=
  c.outBytes .lsb .rising d

/-- `OUT.BYTES.WP.LSB` (R225): the engine executes it. -/
def execOutBytesWpLsb (d : List Byte) (s : State) : Host.Outcome State Fault Refusal :=
  .next { s with chan := cmdOutBytesWpLsb d s.chan }

/-- `OUT.BYTES.WN.LSB` downstream: out, LSB first (R226). -/
def cmdOutBytesWnLsb (d : List Byte) (c : Chan) : Chan :=
  c.outBytes .lsb .falling d

/-- `OUT.BYTES.WN.LSB` (R226): the engine executes it. -/
def execOutBytesWnLsb (d : List Byte) (s : State) : Host.Outcome State Fault Refusal :=
  .next { s with chan := cmdOutBytesWnLsb d s.chan }

/-- `OUT.BITS.WP.MSB` downstream: out, MSB first (R227). -/
def cmdOutBitsWpMsb (k : Nat) (d : Byte) (c : Chan) : Chan :=
  c.outBits .msb .rising k d

/-- `OUT.BITS.WP.MSB` (R227): the engine executes it. -/
def execOutBitsWpMsb (k : Nat) (d : Byte) (s : State) : Host.Outcome State Fault Refusal :=
  .next { s with chan := cmdOutBitsWpMsb k d s.chan }

/-- `OUT.BITS.WN.MSB` downstream: out, MSB first (R228). -/
def cmdOutBitsWnMsb (k : Nat) (d : Byte) (c : Chan) : Chan :=
  c.outBits .msb .falling k d

/-- `OUT.BITS.WN.MSB` (R228): the engine executes it. -/
def execOutBitsWnMsb (k : Nat) (d : Byte) (s : State) : Host.Outcome State Fault Refusal :=
  .next { s with chan := cmdOutBitsWnMsb k d s.chan }

/-- `OUT.BITS.WP.LSB` downstream: out, LSB first (R229). -/
def cmdOutBitsWpLsb (k : Nat) (d : Byte) (c : Chan) : Chan :=
  c.outBits .lsb .rising k d

/-- `OUT.BITS.WP.LSB` (R229): the engine executes it. -/
def execOutBitsWpLsb (k : Nat) (d : Byte) (s : State) : Host.Outcome State Fault Refusal :=
  .next { s with chan := cmdOutBitsWpLsb k d s.chan }

/-- `OUT.BITS.WN.LSB` downstream: out, LSB first (R230). -/
def cmdOutBitsWnLsb (k : Nat) (d : Byte) (c : Chan) : Chan :=
  c.outBits .lsb .falling k d

/-- `OUT.BITS.WN.LSB` (R230): the engine executes it. -/
def execOutBitsWnLsb (k : Nat) (d : Byte) (s : State) : Host.Outcome State Fault Refusal :=
  .next { s with chan := cmdOutBitsWnLsb k d s.chan }

/-- `IN.BYTES.RP.MSB` downstream: in, MSB first (R231). -/
def cmdInBytesRpMsb (n : Nat) (c : Chan) : Chan :=
  c.inBytes .msb .rising n

/-- `IN.BYTES.RP.MSB` (R231): the engine executes it. -/
def execInBytesRpMsb (n : Nat) (s : State) : Host.Outcome State Fault Refusal :=
  .next { s with chan := cmdInBytesRpMsb n s.chan }

/-- `IN.BYTES.RN.MSB` downstream: in, MSB first (R232). -/
def cmdInBytesRnMsb (n : Nat) (c : Chan) : Chan :=
  c.inBytes .msb .falling n

/-- `IN.BYTES.RN.MSB` (R232): the engine executes it. -/
def execInBytesRnMsb (n : Nat) (s : State) : Host.Outcome State Fault Refusal :=
  .next { s with chan := cmdInBytesRnMsb n s.chan }

/-- `IN.BYTES.RP.LSB` downstream: in, LSB first (R233). -/
def cmdInBytesRpLsb (n : Nat) (c : Chan) : Chan :=
  c.inBytes .lsb .rising n

/-- `IN.BYTES.RP.LSB` (R233): the engine executes it. -/
def execInBytesRpLsb (n : Nat) (s : State) : Host.Outcome State Fault Refusal :=
  .next { s with chan := cmdInBytesRpLsb n s.chan }

/-- `IN.BYTES.RN.LSB` downstream: in, LSB first (R234). -/
def cmdInBytesRnLsb (n : Nat) (c : Chan) : Chan :=
  c.inBytes .lsb .falling n

/-- `IN.BYTES.RN.LSB` (R234): the engine executes it. -/
def execInBytesRnLsb (n : Nat) (s : State) : Host.Outcome State Fault Refusal :=
  .next { s with chan := cmdInBytesRnLsb n s.chan }

/-- `IN.BITS.RP.MSB` downstream: in, MSB first (R235). -/
def cmdInBitsRpMsb (k : Nat) (c : Chan) : Chan :=
  c.inBits .msb .rising k

/-- `IN.BITS.RP.MSB` (R235): the engine executes it. -/
def execInBitsRpMsb (k : Nat) (s : State) : Host.Outcome State Fault Refusal :=
  .next { s with chan := cmdInBitsRpMsb k s.chan }

/-- `IN.BITS.RN.MSB` downstream: in, MSB first (R236). -/
def cmdInBitsRnMsb (k : Nat) (c : Chan) : Chan :=
  c.inBits .msb .falling k

/-- `IN.BITS.RN.MSB` (R236): the engine executes it. -/
def execInBitsRnMsb (k : Nat) (s : State) : Host.Outcome State Fault Refusal :=
  .next { s with chan := cmdInBitsRnMsb k s.chan }

/-- `IN.BITS.RP.LSB` downstream: in, LSB first (R237). -/
def cmdInBitsRpLsb (k : Nat) (c : Chan) : Chan :=
  c.inBits .lsb .rising k

/-- `IN.BITS.RP.LSB` (R237): the engine executes it. -/
def execInBitsRpLsb (k : Nat) (s : State) : Host.Outcome State Fault Refusal :=
  .next { s with chan := cmdInBitsRpLsb k s.chan }

/-- `IN.BITS.RN.LSB` downstream: in, LSB first (R238). -/
def cmdInBitsRnLsb (k : Nat) (c : Chan) : Chan :=
  c.inBits .lsb .falling k

/-- `IN.BITS.RN.LSB` (R238): the engine executes it. -/
def execInBitsRnLsb (k : Nat) (s : State) : Host.Outcome State Fault Refusal :=
  .next { s with chan := cmdInBitsRnLsb k s.chan }

/-- `IO.BYTES.WN_RP.MSB` downstream: out and in, MSB first (R239). -/
def cmdIoBytesWnRpMsb (d : List Byte) (c : Chan) : Chan :=
  c.ioBytes .msb .falling .rising d

/-- `IO.BYTES.WN_RP.MSB` (R239): the engine executes it. -/
def execIoBytesWnRpMsb (d : List Byte) (s : State) : Host.Outcome State Fault Refusal :=
  .next { s with chan := cmdIoBytesWnRpMsb d s.chan }

/-- `IO.BYTES.WP_RN.MSB` downstream: out and in, MSB first (R240). -/
def cmdIoBytesWpRnMsb (d : List Byte) (c : Chan) : Chan :=
  c.ioBytes .msb .rising .falling d

/-- `IO.BYTES.WP_RN.MSB` (R240): the engine executes it. -/
def execIoBytesWpRnMsb (d : List Byte) (s : State) : Host.Outcome State Fault Refusal :=
  .next { s with chan := cmdIoBytesWpRnMsb d s.chan }

/-- `IO.BYTES.WN_RP.LSB` downstream: out and in, LSB first (R241). -/
def cmdIoBytesWnRpLsb (d : List Byte) (c : Chan) : Chan :=
  c.ioBytes .lsb .falling .rising d

/-- `IO.BYTES.WN_RP.LSB` (R241): the engine executes it. -/
def execIoBytesWnRpLsb (d : List Byte) (s : State) : Host.Outcome State Fault Refusal :=
  .next { s with chan := cmdIoBytesWnRpLsb d s.chan }

/-- `IO.BYTES.WP_RN.LSB` downstream: out and in, LSB first (R242). -/
def cmdIoBytesWpRnLsb (d : List Byte) (c : Chan) : Chan :=
  c.ioBytes .lsb .rising .falling d

/-- `IO.BYTES.WP_RN.LSB` (R242): the engine executes it. -/
def execIoBytesWpRnLsb (d : List Byte) (s : State) : Host.Outcome State Fault Refusal :=
  .next { s with chan := cmdIoBytesWpRnLsb d s.chan }

/-- `IO.BITS.WN_RP.MSB` downstream: out and in, MSB first (R243). -/
def cmdIoBitsWnRpMsb (k : Nat) (d : Byte) (c : Chan) : Chan :=
  c.ioBits .msb .falling .rising k d

/-- `IO.BITS.WN_RP.MSB` (R243): the engine executes it. -/
def execIoBitsWnRpMsb (k : Nat) (d : Byte) (s : State) : Host.Outcome State Fault Refusal :=
  .next { s with chan := cmdIoBitsWnRpMsb k d s.chan }

/-- `IO.BITS.WP_RN.MSB` downstream: out and in, MSB first (R244). -/
def cmdIoBitsWpRnMsb (k : Nat) (d : Byte) (c : Chan) : Chan :=
  c.ioBits .msb .rising .falling k d

/-- `IO.BITS.WP_RN.MSB` (R244): the engine executes it. -/
def execIoBitsWpRnMsb (k : Nat) (d : Byte) (s : State) : Host.Outcome State Fault Refusal :=
  .next { s with chan := cmdIoBitsWpRnMsb k d s.chan }

/-- `IO.BITS.WN_RP.LSB` downstream: out and in, LSB first (R245). -/
def cmdIoBitsWnRpLsb (k : Nat) (d : Byte) (c : Chan) : Chan :=
  c.ioBits .lsb .falling .rising k d

/-- `IO.BITS.WN_RP.LSB` (R245): the engine executes it. -/
def execIoBitsWnRpLsb (k : Nat) (d : Byte) (s : State) : Host.Outcome State Fault Refusal :=
  .next { s with chan := cmdIoBitsWnRpLsb k d s.chan }

/-- `IO.BITS.WP_RN.LSB` downstream: out and in, LSB first (R246). -/
def cmdIoBitsWpRnLsb (k : Nat) (d : Byte) (c : Chan) : Chan :=
  c.ioBits .lsb .rising .falling k d

/-- `IO.BITS.WP_RN.LSB` (R246): the engine executes it. -/
def execIoBitsWpRnLsb (k : Nat) (d : Byte) (s : State) : Host.Outcome State Fault Refusal :=
  .next { s with chan := cmdIoBitsWpRnLsb k d s.chan }

/-- `TMS.WP` downstream: TDI held at bit 7, the control bits on TMS (R247). -/
def cmdTmsWp (m : Nat) (d : Byte) (c : Chan) : Chan :=
  c.tmsOut .rising m d

/-- `TMS.WP` (R247): the engine executes it. -/
def execTmsWp (m : Nat) (d : Byte) (s : State) : Host.Outcome State Fault Refusal :=
  .next { s with chan := cmdTmsWp m d s.chan }

/-- `TMS.WN` downstream: TDI held at bit 7, the control bits on TMS (R248). -/
def cmdTmsWn (m : Nat) (d : Byte) (c : Chan) : Chan :=
  c.tmsOut .falling m d

/-- `TMS.WN` (R248): the engine executes it. -/
def execTmsWn (m : Nat) (d : Byte) (s : State) : Host.Outcome State Fault Refusal :=
  .next { s with chan := cmdTmsWn m d s.chan }

/-- `TMSR.WP_RP` downstream: TDI held at bit 7, the control bits on TMS (R249). -/
def cmdTmsrWpRp (m : Nat) (d : Byte) (c : Chan) : Chan :=
  c.tmsIo .rising .rising m d

/-- `TMSR.WP_RP` (R249): the engine executes it. -/
def execTmsrWpRp (m : Nat) (d : Byte) (s : State) : Host.Outcome State Fault Refusal :=
  .next { s with chan := cmdTmsrWpRp m d s.chan }

/-- `TMSR.WN_RP` downstream: TDI held at bit 7, the control bits on TMS (R250). -/
def cmdTmsrWnRp (m : Nat) (d : Byte) (c : Chan) : Chan :=
  c.tmsIo .falling .rising m d

/-- `TMSR.WN_RP` (R250): the engine executes it. -/
def execTmsrWnRp (m : Nat) (d : Byte) (s : State) : Host.Outcome State Fault Refusal :=
  .next { s with chan := cmdTmsrWnRp m d s.chan }

/-- `TMSR.WP_RN` downstream: TDI held at bit 7, the control bits on TMS (R251). -/
def cmdTmsrWpRn (m : Nat) (d : Byte) (c : Chan) : Chan :=
  c.tmsIo .rising .falling m d

/-- `TMSR.WP_RN` (R251): the engine executes it. -/
def execTmsrWpRn (m : Nat) (d : Byte) (s : State) : Host.Outcome State Fault Refusal :=
  .next { s with chan := cmdTmsrWpRn m d s.chan }

/-- `TMSR.WN_RN` downstream: TDI held at bit 7, the control bits on TMS (R252). -/
def cmdTmsrWnRn (m : Nat) (d : Byte) (c : Chan) : Chan :=
  c.tmsIo .falling .falling m d

/-- `TMSR.WN_RN` (R252): the engine executes it. -/
def execTmsrWnRn (m : Nat) (d : Byte) (s : State) : Host.Outcome State Fault Refusal :=
  .next { s with chan := cmdTmsrWnRn m d s.chan }

end Sys2Proof.Machine
end

