-- ==== Sys2Proof/Machine/Channel.lean ====
section
/-! DEFINITION. The channel agent (spec/00_scope.md R5 (c)): the engine's decoder at work on the flushed stream
(30_encoding.md R88, 20_memory.md R70), and the transport calls the block makes (20_memory.md R60 to R65), with what the
environment does at each taken from the list `turns` (log entry 10). -/

namespace Sys2Proof.Machine

/-! ## The engine at work -/

/-- A command's effect on the channel; a host operation has none downstream. -/
def engCmd (i : Instr) (c : Chan) : Chan :=
  match i with
  | .outBytesWpMsb d => cmdOutBytesWpMsb d c
  | .outBytesWnMsb d => cmdOutBytesWnMsb d c
  | .outBytesWpLsb d => cmdOutBytesWpLsb d c
  | .outBytesWnLsb d => cmdOutBytesWnLsb d c
  | .outBitsWpMsb k d => cmdOutBitsWpMsb k d c
  | .outBitsWnMsb k d => cmdOutBitsWnMsb k d c
  | .outBitsWpLsb k d => cmdOutBitsWpLsb k d c
  | .outBitsWnLsb k d => cmdOutBitsWnLsb k d c
  | .inBytesRpMsb n => cmdInBytesRpMsb n c
  | .inBytesRnMsb n => cmdInBytesRnMsb n c
  | .inBytesRpLsb n => cmdInBytesRpLsb n c
  | .inBytesRnLsb n => cmdInBytesRnLsb n c
  | .inBitsRpMsb k => cmdInBitsRpMsb k c
  | .inBitsRnMsb k => cmdInBitsRnMsb k c
  | .inBitsRpLsb k => cmdInBitsRpLsb k c
  | .inBitsRnLsb k => cmdInBitsRnLsb k c
  | .ioBytesWnRpMsb d => cmdIoBytesWnRpMsb d c
  | .ioBytesWpRnMsb d => cmdIoBytesWpRnMsb d c
  | .ioBytesWnRpLsb d => cmdIoBytesWnRpLsb d c
  | .ioBytesWpRnLsb d => cmdIoBytesWpRnLsb d c
  | .ioBitsWnRpMsb k d => cmdIoBitsWnRpMsb k d c
  | .ioBitsWpRnMsb k d => cmdIoBitsWpRnMsb k d c
  | .ioBitsWnRpLsb k d => cmdIoBitsWnRpLsb k d c
  | .ioBitsWpRnLsb k d => cmdIoBitsWpRnLsb k d c
  | .tmsWp m d => cmdTmsWp m d c
  | .tmsWn m d => cmdTmsWn m d c
  | .tmsrWpRp m d => cmdTmsrWpRp m d c
  | .tmsrWnRp m d => cmdTmsrWnRp m d c
  | .tmsrWpRn m d => cmdTmsrWpRn m d c
  | .tmsrWnRn m d => cmdTmsrWnRn m d c
  | .setLow val dir => cmdSetLow val dir c
  | .getLow => cmdGetLow c
  | .setHigh val dir => cmdSetHigh val dir c
  | .getHigh => cmdGetHigh c
  | .loopOn => cmdLoopOn c
  | .loopOff => cmdLoopOff c
  | .setDiv d => cmdSetDiv d c
  | .sendImm => cmdSendImm c
  | .div5Off => cmdDiv5Off c
  | .div5On => cmdDiv5On c
  | .ph3On => cmdPh3On c
  | .ph3Off => cmdPh3Off c
  | .adaptOn => cmdAdaptOn c
  | .adaptOff => cmdAdaptOff c
  | .odCfg maskL maskH => cmdOdCfg maskL maskH c
  | .bogus => cmdBogus c
  | .qEnq .. => c
  | .qEnqs .. => c
  | .qFlush => c
  | .qRead .. => c
  | .qCount => c
  | .clkConfigure .. => c
  | .tapNext .. => c
  | .tapPath .. => c
  | .tapGoto .. => c
  | .jtagReset => c
  | .jtagScanIr .. => c
  | .jtagScanDr .. => c
  | .jtagSetEndIr .. => c
  | .jtagSetEndDr .. => c
  | .spiAssert => c
  | .spiClear => c
  | .spiTransact .. => c
  | .spiWrite .. => c
  | .spiRead .. => c
  | .i2cStart => c
  | .i2cRstart => c
  | .i2cStop => c
  | .i2cWriteByte .. => c
  | .i2cReadByte .. => c
  | .i2cXread .. => c
  | .i2cXwrite .. => c
  | .mpsseSync => c
  | .jtagOpen .. => c
  | .spiOpen .. => c
  | .i2cOpen .. => c
  | .close => c
  | .mpsseEmit .. => c

/-- An opcode that is gated off on this chip is unrecognised (R97). -/
def Caps.lacks (sup : Caps) (op : Byte) : Bool :=
  match CmdKey.ofOpcode op with
  | some k => !sup.opens (keyGate k)
  | none => false

/-- What the engine finds at the front of the stream: R88's decoding; an opcode the chip lacks is one byte long, so that
it does not wait for the operand bytes it would have (R97, R277; log entry 29). -/
def Chan.engFetch (c : Chan) : CmdFetch :=
  match decodeCmd c.tx with
  | .cmd i r => .cmd i r
  | .unknown op r => .unknown op r
  | .short =>
    match c.tx with
    | [] => .short
    | op :: r => if c.sup.lacks op then .unknown op r else .short

/-- One engine step: the command at the front, or the echo of an unrecognised opcode, which is one byte long (R88, R95);
none when the stream holds no whole command. -/
def Chan.engStep (c : Chan) : Option Chan :=
  match c.engFetch with
  | .cmd i r => some (engCmd i { c with tx := r })
  | .unknown op r => some (Chan.echo op { c with tx := r })
  | .short => none

/-- Engine steps, at most the number given. -/
def Chan.engRun : Nat → Chan → Chan
  | 0, c => c
  | k + 1, c =>
    match c.engStep with
    | some c' => Chan.engRun k c'
    | none => c

/-- The engine works through everything flushed (R70; log entry 27). Every step takes a byte of the stream at least. -/
def Chan.settle (c : Chan) : Chan := c.engRun c.tx.length

/-! ## Transport calls -/

/-- A call is made (log entry 28). -/
def Chan.called (t : TCall) (c : Chan) : Chan := { c with calls := c.calls ++ [t] }

/-- Up to `n` response bytes reach `RX`: those under way first (R68, R71), then gathered ones, which the chip hands over
when its buffer fills or its latency timer runs out (R73; log entry 32). -/
def Chan.deliver (n : Nat) (c : Chan) : Chan :=
  { c with
    rx := c.rx ++ (c.inFlight ++ c.eng.gathered).take n
    inFlight := c.inFlight.drop n
    eng := { c.eng with gathered := c.eng.gathered.drop (n - c.inFlight.length) } }

/-- Every response byte reaches `RX`. -/
def Chan.deliverAll (c : Chan) : Chan := c.deliver (c.inFlight ++ c.eng.gathered).length

/-- A call other than `write` and `read`: the next turn says whether it succeeds and what reaches `RX` first (R60). Past
the last turn it succeeds, and every response byte reaches `RX` first: DESIGN CHOICE, also for the setup calls and the
capability queries, of which the spec says nothing there (log entry 10). -/
def Chan.ask (t : TCall) (c : Chan) : Bool × Chan :=
  match c.turns with
  | [] => (true, c.deliverAll.called t)
  | .answers give :: ts => (true, (Chan.deliver give { c with turns := ts }).called t)
  | .fails _ :: ts => (false, { c with turns := ts }.called t)

/-- `write(bytes)`: one bulk transfer; a failed one delivers its first bytes only (R61; log entry 12). The flag says
whether it succeeded. -/
def Chan.write (bs : List Byte) (c : Chan) : Bool × Chan :=
  match c.turns with
  | [] => (true, { c with tx := c.tx ++ bs }.called (.write bs))
  | .answers give :: ts => (true, (Chan.deliver give { c with tx := c.tx ++ bs, turns := ts }).called (.write bs))
  | .fails took :: ts => (false, { c with tx := c.tx ++ bs.take took, turns := ts }.called (.write bs))

/-- One successful `read(max_len)`: up to `n` bytes leave `RX` (R62). -/
def Chan.takeRx (n : Nat) (c : Chan) : List Byte × Chan :=
  (c.rx.take n, { c with rx := c.rx.drop n }.called (.read n))

/-- The loop of `read_exact` over the environment's turns: the bytes, or how many were obtained before the failure or the
timeout (R113, X12). Past the last turn every response byte reaches `RX` and then the timeout elapses
(log entry 11). -/
def Chan.readLoop (n : Nat) : List Turn → List Byte → Chan → Except Nat (List Byte) × Chan
  | [], acc, c =>
    let p := { c with turns := [] }.deliverAll.takeRx (n - acc.length)
    if n ≤ (acc ++ p.1).length then (.ok (acc ++ p.1), p.2)
    else if p.1 = [] then (.error acc.length, p.2)
    else (.error (acc ++ p.1).length, p.2.called (.read (n - (acc ++ p.1).length)))
  | .fails _ :: ts, acc, c => (.error acc.length, { c with turns := ts }.called (.read (n - acc.length)))
  | .answers give :: ts, acc, c =>
    let p := (Chan.deliver give { c with turns := ts }).takeRx (n - acc.length)
    if n ≤ (acc ++ p.1).length then (.ok (acc ++ p.1), p.2) else Chan.readLoop n ts (acc ++ p.1) p.2

/-- `read_exact(n)` at the transport; no call for `n = 0` (R113). -/
def Chan.readExact (n : Nat) (c : Chan) : Except Nat (List Byte) × Chan :=
  if n = 0 then (.ok [], c) else c.settle.readLoop n c.settle.turns []

/-- `get_queued_byte_count()`: the length of `RX` at that moment (R63); none when the call fails. -/
def Chan.count (c : Chan) : Option Nat × Chan :=
  let p := c.settle.ask .count
  (if p.1 then some p.2.rx.length else none, p.2)

/-- A setup call: its effect when it succeeds (R64). The flag says whether it did. What reaches `RX` first is `Chan.ask`'s,
past the last turn too: there the spec is silent, and every response byte does (DESIGN CHOICE, log entry 10). A call
that fails leaves modes, pins and settings as they were: DESIGN CHOICE (log entry 19). -/
def Chan.setup (t : TCall) (act : Chan → Chan) (c : Chan) : Bool × Chan :=
  let p := c.settle.ask t
  (p.1, if p.1 then act p.2 else p.2)

/-- What a bit mode change does to the chip (R64, R212; log entries 19 and 31): the low pins' directions become the mask;
a reset makes the high pins inputs too, and does not move the target's TAP (R212). -/
def Chan.enterMode (mask : Byte) (m : BitMode) (c : Chan) : Chan :=
  let d := { c with bitMode := m, wire := c.wire ++ [WireEvt.mode mask m] }
  match m with
  | .reset => { d with eng := { c.eng with lowDir := mask, highDir := 0 } }
  | .mpsse => d.movePins { c.eng with lowDir := mask }

/-- `set_bit_mode(mask, mode)` (R64). -/
def Chan.setBitMode (mask : Byte) (m : BitMode) (c : Chan) : Bool × Chan :=
  c.setup (.setBitMode mask m) (Chan.enterMode mask m)

/-- `set_usb_transfer_sizes(in, out)` (R64). -/
def Chan.setUsbSizes (i o : Size32) (c : Chan) : Bool × Chan :=
  c.setup (.setUsbSizes i o) fun c => { c with usbIn := i, usbOut := o }

/-- `set_timeouts(read_ms, write_ms)` (R64). -/
def Chan.setTimeouts (r w : Nat) (c : Chan) : Bool × Chan :=
  c.setup (.setTimeouts r w) fun c => { c with rdTimeout := r, wrTimeout := w }

/-- `set_latency_timer(ms)` (R64). -/
def Chan.setLatency (ms : Byte) (c : Chan) : Bool × Chan :=
  c.setup (.setLatency ms) fun c => { c with latency := ms }

end Sys2Proof.Machine
end

