-- ==== Sys2Proof/Machine/Memory.lean ====
section
/-! DEFINITION. The queue buffer `Q.buf` as memory (spec/10_state.md R23, 20_memory.md R50): one byte read, one byte
written, a run of bytes written, and the region a flush takes. An address nothing has written holds no value (log
entry 9). -/

namespace Sys2Proof.Machine

/-- The byte at an address; `none` where nothing has been written (R23: "unspecified contents"). -/
def Memory.read : Memory → Nat → Option Byte
  | [], _ => none
  | (k, b) :: m, a => if a = k then some b else Memory.read m a

/-- Store one byte, keeping the addresses strictly rising. -/
def Memory.write : Memory → Nat → Byte → Memory
  | [], a, b => [(a, b)]
  | (k, x) :: m, a, b =>
    if a < k then (a, b) :: (k, x) :: m
    else if a = k then (a, b) :: m
    else (k, x) :: Memory.write m a b

/-- Store a run of bytes, the first at the lowest address (R111). -/
def Memory.writeList : Memory → Nat → List Byte → Memory
  | m, _, [] => m
  | m, a, b :: bs => Memory.writeList (m.write a b) (a + 1) bs

/-- The byte a flush takes at an address; a free value where nothing has been written (X1; no reachable state asks). -/
def Memory.byteAt (m : Memory) (a : Nat) : Byte := (m.read a).getD (Config.unspecifiedByte a)

/-- `Q.buf[0 .. n)`, the region a flush of `n` bytes takes (R112). -/
def Memory.region (m : Memory) (n : Nat) : List Byte := (List.range n).map m.byteAt

/-- The canonical form: addresses strictly rising. (No entry can equal what an unlisted address reads as, which is no
value.) -/
def Memory.wf : Memory → Bool
  | [] => true
  | [_] => true
  | c :: d :: m => decide (c.1 < d.1) && Memory.wf (d :: m)

end Sys2Proof.Machine
end

