-- ==== Sys2Proof/Machine/Ops.lean ====
section
/-! DEFINITION. The named operations the host operations are built from (spec/00_scope.md R11): results, fault entry
(60_exceptions.md R296) in ONE place, `emit`, `flush`, `read_exact`, `count`, `SETL`, and the channel-state checks
(R293). -/

namespace Sys2Proof.Machine

/-! ## Results -/

/-- How a step of an operation ends: with a value, with `raise` (R11), or held for good (X13, log entry 24). -/
inductive Res (α : Type)
  | ok (a : α) (s : State)
  | raised (code : FaultCode) (info : Detail) (s : State)
  | held (f : Fault)

/-- One step, then the next: a fault or a hold ends the operation where it stands (R300). -/
def Res.bind {α β : Type} (r : Res α) (f : α → State → Res β) : Res β :=
  match r with
  | .ok a s => f a s
  | .raised code info s => .raised code info s
  | .held h => .held h

/-! ## Fault entry (R296) -/

/-- The operation is an open (R296's last line). -/
def opIsOpen : HostOp → Bool
  | .jtagOpen => true
  | .spiOpen => true
  | .i2cOpen => true
  | .qEnq => false
  | .qEnqs => false
  | .qFlush => false
  | .qRead => false
  | .qCount => false
  | .clkConfigure => false
  | .tapNext => false
  | .tapPath => false
  | .tapGoto => false
  | .jtagReset => false
  | .jtagScanIr => false
  | .jtagScanDr => false
  | .jtagSetEndIr => false
  | .jtagSetEndDr => false
  | .spiAssert => false
  | .spiClear => false
  | .spiTransact => false
  | .spiWrite => false
  | .spiRead => false
  | .i2cStart => false
  | .i2cRstart => false
  | .i2cStop => false
  | .i2cWriteByte => false
  | .i2cReadByte => false
  | .i2cXread => false
  | .i2cXwrite => false
  | .mpsseSync => false
  | .close => false
  | .mpsseEmit => false

/-- Fault entry for a precondition fault, and for the overflow of `Q.ENQ` or `Q.ENQS`: the fault is recorded and the host
receives its code; no other register changes (R296). -/
def faultEarly (op : HostOp) (code : FaultCode) (info : Detail) (s : State) : State :=
  { s with flog := s.flog ++ [⟨code, op, info⟩], answer := .fault code }

/-- Fault entry for a fault raised during execution, line by line (R296): the record; the queue emptied; the TAP mirror
not to be trusted after a transport fault under JTAG; the channel dead after a failed handshake, or after a fault of an
open whose first `set_bit_mode` was called (`opening`); the host receives the code. -/
def faultLate (opening : Bool) (op : HostOp) (code : FaultCode) (info : Detail) (s : State) : State :=
  { s with
    flog := s.flog ++ [⟨code, op, info⟩]
    qcur := 0
    tapKnown := s.tapKnown && !(decide (code = .transport) && decide (s.proto = .jtag))
    ch := if opening || decide (code = .synchronization) then .dead else s.ch
    proto := if opening then .none else s.proto
    answer := .fault code }

/-- How far an operation had come when it raised (R296): at its precondition checks; at the capability queries of an open,
before its first `set_bit_mode` (R211); or later. -/
inductive FaultStage
  | check | query | running
  deriving DecidableEq, Repr

/-- TAKING A FAULT: the one entry every `raise` of the block goes through (R296). An open emits nothing before its first
`set_bit_mode`, so that every fault of its running stage comes after that call. -/
def takeFault (stage : FaultStage) (op : HostOp) (code : FaultCode) (info : Detail) (s : State) : State :=
  match stage with
  | .check => faultEarly op code info s
  | .query => faultLate false op code info s
  | .running => faultLate (opIsOpen op) op code info s

/-- A host operation: its precondition checks first, in the order of its rule (R298); then its body; then the answer to
the host (R98). There is no return from a fault but the next operation (R299). -/
def runOp {α : Type} (op : HostOp) (pre : State → Option (FaultCode × Detail)) (body : State → Res α)
    (give : α → Answer) (s : State) : Host.Outcome State Fault Refusal :=
  match pre s with
  | some f => .next (takeFault .check op f.1 f.2 s)
  | none =>
    match body s with
    | .ok a t => .next { t with answer := give a }
    | .raised code info t => .next (takeFault .running op code info t)
    | .held f => .fault f

/-! ## Checks (R293, R298) -/

/-- One check, then the next; the first that fails is the fault (R298). -/
def orElse (a b : Option (FaultCode × Detail)) : Option (FaultCode × Detail) :=
  match a with
  | some f => some f
  | none => b

/-- A check. -/
def check (c : Bool) (code : FaultCode) (info : Detail) : Option (FaultCode × Detail) :=
  if c then none else some (code, info)

/-- `CH = OPEN` (R293, third row). -/
def needOpen (s : State) : Option (FaultCode × Detail) :=
  check (decide (s.ch = .opened)) .configuration (.reason .channelNotOpen)

/-- `CH = OPEN` and `PROTO` as asked (R293, last three rows). -/
def needProto (p : Proto) (s : State) : Option (FaultCode × Detail) :=
  orElse (needOpen s) (check (decide (s.proto = p)) .configuration (.reason .wrongProtocol))

/-- A size below 1: what is needed, and what there is (R59, R290; log entry 22). -/
def atLeastOne (n : Nat) : Option (Nat × Nat) := if n = 0 then some (1, n) else none

/-- A size above its bound (R295). -/
def atMost (n bound : Nat) : Option (Nat × Nat) := if bound < n then some (n, bound) else none

/-- A buffer of another length than needed (R59). -/
def exactly (n len : Nat) : Option (Nat × Nat) := if len = n then none else some (n, len)

/-- The sizes of a transfer with a buffer that do not agree, in the order of R152 and R168: at least one bit, a buffer of
`ceil(n/8)` bytes, a byte command within bounds. -/
def transferMisfit (par : Config.Params) (n bytes : Nat) (out : List Byte) : Option (Nat × Nat) :=
  (atLeastOne n).or ((exactly (ceil8 n) out.length).or (atMost bytes par.maxBlock))

/-- The `SizingViolation` of sizes that do not fit, with the needed and the available one as its detail (R290, R295). -/
def sized (info : Nat → Nat → Detail) (misfit : Option (Nat × Nat)) : Option (FaultCode × Detail) :=
  misfit.map fun p => (.sizing, info p.1 p.2)

/-- A pure function checks nothing (R293). -/
def needNothing (_ : State) : Option (FaultCode × Detail) := none

/-! ## The queue -/

/-- Bytes free in the queue (R110). -/
def State.queueFree (s : State) : Nat := s.par.qcap - s.qcur

/-- A sequence fits the queue: the check covers the whole of it (R111). -/
def State.fits (s : State) (bs : List Byte) : Bool := decide (s.qcur + bs.length ≤ s.par.qcap)

/-- The detail of a queue overflow (R110, R111). -/
def State.overflow (s : State) (bs : List Byte) : Detail := .queueOverflow bs.length s.queueFree

/-- The bytes stored at the cursor, and the cursor moved past them (R110, R111). -/
def State.append (s : State) (bs : List Byte) : State :=
  { s with qbuf := s.qbuf.writeList s.qcur bs, qcur := s.qcur + bs.length }

/-- `emit` (R11, R111): all or nothing. -/
def emit (bs : List Byte) (s : State) : Res Unit :=
  if s.fits bs then .ok () (s.append bs) else .raised .sizing (s.overflow bs) s

/-- Emits one after the other, each all or nothing (log entry 21). -/
def emitAll : List (List Byte) → State → Res Unit
  | [], s => .ok () s
  | bs :: rest, s => (emit bs s).bind fun _ t => emitAll rest t

/-- A channel call's effect on the state. -/
def State.withChan (s : State) (c : Chan) : State := { s with chan := c }

/-- `flush()`: nothing for an empty queue; else one `write` of the whole region, the cursor to 0 also on failure (R112). -/
def flush (s : State) : Res Unit :=
  if s.qcur = 0 then .ok () s
  else
    let w := s.chan.write (s.qbuf.region s.qcur)
    let t := { s with qcur := 0, chan := w.2 }
    if w.1 then .ok () t else .raised .transport .write t

/-- `read_exact(n)` (R113). -/
def readExact (n : Nat) (s : State) : Res (List Byte) :=
  let r := s.chan.readExact n
  match r.1 with
  | .ok bs => .ok bs (s.withChan r.2)
  | .error got => .raised .transport (.read got) (s.withChan r.2)

/-- `count()` (R114). -/
def count (s : State) : Res Nat :=
  let r := s.chan.count
  match r.1 with
  | some n => .ok n (s.withChan r.2)
  | none => .raised .transport .count (s.withChan r.2)

/-- A setup call or capability query of the transport (R60, R206): success, or `TransportFault` naming the call. -/
def setupCall (f : Chan → Bool × Chan) (info : Detail) (s : State) : Res Unit :=
  let r := f s.chan
  if r.1 then .ok () (s.withChan r.2) else .raised .transport info (s.withChan r.2)

/-! ## Pin sets -/

/-- The bytes of a low pin-set (R260). -/
def setLowBytes (val dir : Byte) : List Byte := [Config.opmap.setLow, val, dir]

/-- `SETL(val, dir)`: the pin-set emitted, then the shadows updated (R11, R29). -/
def setl (val dir : Byte) (s : State) : Res Unit :=
  (emit (setLowBytes val dir) s).bind fun _ t => .ok () { t with plVal := val, plDir := dir }

end Sys2Proof.Machine
end

