-- ==== Sys2Proof/Machine/Clock.lean ====
section
/-! DEFINITION. The clock configurator (spec/41_clock.md R120 to R123). -/

namespace Sys2Proof.Machine

/-- The fast base is selected: an enhanced chip and a request strictly above `F_LO` (R121). -/
def clkFast (par : Config.Params) (enh : Bool) (hz : Nat) : Bool := enh && decide (par.fLo < hz)

/-- The base frequency (R121). -/
def clkBase (par : Config.Params) (enh : Bool) (hz : Nat) : Nat :=
  if clkFast par enh hz then par.fHi else par.fLo

/-- The prescaler command, alone in its emit; none on a chip that is not enhanced (R121, R97). -/
def clkPrescaler (par : Config.Params) (enh : Bool) (hz : Nat) : List (List Byte) :=
  if enh then
    if clkFast par enh hz then [[Config.opmap.div5Off]] else [[Config.opmap.div5On]]
  else []

/-- `divisor(base, hz)` in its closed form: `min(DIV_MAX, max(0, ceil(base / (2*hz)) - 1))`, and `DIV_MAX` for 0 Hz
(R122). -/
def clkDivisor (divMax base hz : Nat) : Nat :=
  if hz = 0 then divMax else min divMax ((base + 2 * hz - 1) / (2 * hz) - 1)

/-- The divisor of a request (R121, R122). -/
def clkDivisorFor (par : Config.Params) (enh : Bool) (hz : Nat) : Nat :=
  clkDivisor par.divMax (clkBase par enh hz) hz

/-- The emits of a clock change: the prescaler command first, then `SET_DIV`, low byte first (R120, R123). -/
def clkEmits (par : Config.Params) (enh : Bool) (hz : Nat) : List (List Byte) :=
  clkPrescaler par enh hz
    ++ [[Config.opmap.setDiv], [lo8 (clkDivisorFor par enh hz)], [hi8 (clkDivisorFor par enh hz)]]

/-- The body of `CLK.CONFIGURE` (R120); the frequency is a natural, so that the 3-phase factor cannot wrap (R191). -/
def clkConfigure (hz : Nat) (s : State) : Res Divisor :=
  (emitAll (clkEmits s.par s.cap.enh hz) s).bind fun _ t =>
    (flush t).bind fun _ u => .ok (BitVec.ofNat 16 (clkDivisorFor s.par s.cap.enh hz)) u

/-- `CLK.CONFIGURE hz` (R120). -/
def execClkConfigure (hz : Hertz) (s : State) : Host.Outcome State Fault Refusal :=
  runOp .clkConfigure needOpen (clkConfigure hz.toNat) .divisor s

end Sys2Proof.Machine
end

