-- ==== Sys2Proof/Machine/Emit.lean ====
section
/-! DEFINITION. `MPSSE.EMIT`, the primitive emit operation (spec/48_mpsse_pin_config_opcodes.md R276). -/

namespace Sys2Proof.Machine

/-- The mnemonic of a command as the host names it (R276 (first check)); none for one outside R93. -/
def cmdKey : MCmd → Option CmdKey
  | .bytesW o _ _ => some (.bytesW o)
  | .bytesR o _ => some (.bytesR o)
  | .bitsW o _ _ => some (.bitsW o)
  | .bitsR o _ => some (.bitsR o)
  | .tms o _ _ => some (.tms o)
  | .pset o _ _ => some (.pset o)
  | .noarg o => some (.noarg o)
  | .setDiv _ => some .setDiv
  | .odCfg _ _ => some .odCfg
  | .unknown _ => none

/-- The gate of a command as the host names it. -/
def cmdGate (cmd : MCmd) : Gate :=
  match cmdKey cmd with
  | some k => keyGate k
  | none => .always

/-- The operand outside the ranges of the command's rule, as needed and available size: `N`, `k`, `m`, `len(D) = N`, the
divisor (R220, R276, R290). -/
def cmdMisfit (par : Config.Params) : MCmd → Option (Nat × Nat)
  | .bytesW _ n d => (atLeastOne n).or ((atMost n par.maxBlock).or (exactly n d.length))
  | .bytesR _ n => (atLeastOne n).or (atMost n par.maxBlock)
  | .bitsW _ k _ => (atLeastOne k).or (atMost k 8)
  | .bitsR _ k => (atLeastOne k).or (atMost k 8)
  | .tms _ m _ => (atLeastOne m).or (atMost m 7)
  | .pset _ _ _ => none
  | .noarg _ => none
  | .setDiv d => atMost d par.divMax
  | .odCfg _ _ => none
  | .unknown _ => none

/-- The bytes of a command (R220, R276). The host's data byte goes out as it is, its unused bits too, which R84 and R86 say
the block sets to 0: DESIGN CHOICE (log entry 43). -/
def cmdBytes (cmd : MCmd) : List Byte :=
  match cmd.instr with
  | some i => encodeCmd i
  | none => []

/-- `PL_VAL` and `PL_DIR` after the command: a low pin-set is the most recent one (R29, R260). -/
def State.shadow (s : State) : MCmd → State
  | .pset .low val dir => { s with plVal := val, plDir := dir }
  | .pset .high _ _ => s
  | .bytesW _ _ _ => s
  | .bytesR _ _ => s
  | .bitsW _ _ _ => s
  | .bitsR _ _ => s
  | .tms _ _ _ => s
  | .noarg _ => s
  | .setDiv _ => s
  | .odCfg _ _ => s
  | .unknown _ => s

/-- The checks of `MPSSE.EMIT`, in its order (R276). -/
def needEmit (cmd : MCmd) (s : State) : Option (FaultCode × Detail) :=
  orElse (needOpen s)
    (orElse (check (cmdKey cmd).isSome .configuration (.reason .unknownCommand))
      (orElse (check (!decide (cmdGate cmd = .enhanced) || s.cap.enh) .configuration (.reason .needsEnhanced))
        (orElse (check (!decide (cmdGate cmd = .openDrain) || s.cap.od) .configuration (.reason .needsOpenDrain))
          (sized .operand (cmdMisfit s.par cmd)))))

/-- The body of `MPSSE.EMIT`: one append, then the shadow; an overflow is raised during execution (log entry 34). -/
def mpsseEmit (cmd : MCmd) (s : State) : Res Unit :=
  (emit (cmdBytes cmd) s).bind fun _ t => .ok () (t.shadow cmd)

/-- `MPSSE.EMIT cmd` (R276). -/
def execMpsseEmit (cmd : MCmd) (s : State) : Host.Outcome State Fault Refusal :=
  runOp .mpsseEmit (needEmit cmd) (mpsseEmit cmd) (fun _ => .done) s

end Sys2Proof.Machine
end

