-- ==== Sys2Proof/Machine/I2c.lean ====
section
/-! DEFINITION. The I2C controller: pin phases, conditions, byte operations and transaction helpers (spec/45_i2c.md R180
to R190). -/

namespace Sys2Proof.Machine

/-! ## Phases and conditions -/

/-- The value byte of a phase (R181): both lines as levels with open-drain pins, SCL alone without. -/
def phaseVal (od : Bool) (v : Byte) (scl : Bool) (sda : Sda) : Byte :=
  (v &&& ~~~idleMask) ||| (if scl then sclMask else 0)
    ||| (if od && decide (sda = .rel) then sdaMask else 0)

/-- The direction byte of a phase (R181, R190): with open-drain pins both stay outputs; without, a released SDA is an
input. -/
def phaseDir (od : Bool) (d : Byte) (sda : Sda) : Byte :=
  (d &&& ~~~idleMask) ||| sclMask ||| (if od || decide (sda = .low) then sdaMask else 0)

/-- `I2C_PHASE(scl, sda)` (R181). -/
def i2cPhase (scl : Bool) (sda : Sda) (s : State) : Res Unit :=
  setl (phaseVal s.cap.od s.plVal scl sda) (phaseDir s.cap.od s.plDir sda) s

/-- A phase a number of times over. -/
def i2cPhases : Nat → Bool → Sda → State → Res Unit
  | 0, _, _, s => .ok () s
  | k + 1, scl, sda, s => (i2cPhase scl sda s).bind fun _ t => i2cPhases k scl sda t

/-- `I2C_HOLD(scl, sda)`: `I2C_REPEAT` identical phases (R182). -/
def i2cHold (scl : Bool) (sda : Sda) (s : State) : Res Unit := i2cPhases s.par.i2cRepeat scl sda s

/-- Holds one after the other, then a flush (R183 to R185). -/
def i2cHolds : List (Bool × Sda) → State → Res Unit
  | [], s => flush s
  | p :: ps, s => (i2cHold p.1 p.2 s).bind fun _ t => i2cHolds ps t

/-- The phases of START (R183). -/
def startPhases : List (Bool × Sda) := [(true, .rel), (true, .low), (false, .low)]
/-- The phases of a repeated START (R184). -/
def rstartPhases : List (Bool × Sda) := [(false, .rel), (true, .rel), (true, .low), (false, .low)]
/-- The phases of STOP (R185). -/
def stopPhases : List (Bool × Sda) := [(false, .low), (true, .low), (true, .rel)]

/-- `I2C.START` (R183). -/
def execI2cStart (s : State) : Host.Outcome State Fault Refusal :=
  runOp .i2cStart (needProto .i2c) (i2cHolds startPhases) (fun _ => .done) s

/-- `I2C.RSTART` (R184). -/
def execI2cRstart (s : State) : Host.Outcome State Fault Refusal :=
  runOp .i2cRstart (needProto .i2c) (i2cHolds rstartPhases) (fun _ => .done) s

/-- `I2C.STOP` (R185). -/
def execI2cStop (s : State) : Host.Outcome State Fault Refusal :=
  runOp .i2cStop (needProto .i2c) (i2cHolds stopPhases) (fun _ => .done) s

/-! ## Byte operations -/

/-- The body of `I2C.WRITE_BYTE`; true for an acknowledge, and a NAK is no fault (R186, R297). -/
def i2cWriteByte (v : Byte) (s : State) : Res Bool :=
  (i2cPhase false .low s).bind fun _ t =>
    (emit [Config.opmap.outBytesWnMsb, 0, 0, v] t).bind fun _ u =>
      (i2cPhase false .rel u).bind fun _ w =>
        (emitAll [[Config.opmap.inBitsRpMsb, 0], [Config.opmap.sendImm]] w).bind fun _ x =>
          (flush x).bind fun _ y =>
            (readExact 1 y).bind fun resp z => .ok (ackOf resp) z

/-- The body of `I2C.READ_BYTE` (R187). -/
def i2cReadByte (ack : Bool) (s : State) : Res Byte :=
  (i2cPhase false .rel s).bind fun _ t =>
    (emit [Config.opmap.inBytesRpMsb, 0, 0] t).bind fun _ u =>
      (i2cPhase false .low u).bind fun _ w =>
        (emit [Config.opmap.outBitsWnMsb, 0, if ack then 0x00 else 0x80] w).bind fun _ x =>
          (i2cPhase false .rel x).bind fun _ y =>
            (emit [Config.opmap.sendImm] y).bind fun _ z =>
              (flush z).bind fun _ f =>
                (readExact 1 f).bind fun resp g => .ok (byteOf resp 0) g

/-- `I2C.WRITE_BYTE v` (R186). -/
def execI2cWriteByte (v : Byte) (s : State) : Host.Outcome State Fault Refusal :=
  runOp .i2cWriteByte (needProto .i2c) (i2cWriteByte v) .acked s

/-- `I2C.READ_BYTE ack` (R187). -/
def execI2cReadByte (ack : Bool) (s : State) : Host.Outcome State Fault Refusal :=
  runOp .i2cReadByte (needProto .i2c) (i2cReadByte ack) .byte s

/-! ## Transaction helpers -/

/-- The address byte: the address in bits 7:1, the direction in bit 0 (R188, R189). -/
def addrByte (addr : Byte) (read : Bool) : Byte := putBit (addr <<< 1) 0 read

/-- The checks of a helper: channel and protocol, then `addr <= 0x7F` (R188, R295 (c)). -/
def needAddr (addr : Byte) (s : State) : Option (FaultCode × Detail) :=
  orElse (needProto .i2c s) (sized .sizes (atMost addr.toNat 0x7F))

/-- The bytes of a read: every one acknowledged but the last (R188). -/
def i2cReadMany : Nat → List Byte → State → Res (List Byte)
  | 0, acc, s => .ok acc s
  | n + 1, acc, s => (i2cReadByte (decide (0 < n)) s).bind fun b t => i2cReadMany n (acc ++ [b]) t

/-- The bytes of a write, up to the first NAK; how many were acknowledged (R189). -/
def i2cWriteMany : List Byte → Nat → State → Res Nat
  | [], k, s => .ok k s
  | b :: bs, k, s =>
    (i2cWriteByte b s).bind fun acked t => if acked then i2cWriteMany bs (k + 1) t else .ok k t

/-- The body of `I2C.XREAD` (R188). -/
def i2cXread (addr : Byte) (count : Nat) (s : State) : Res (Option (List Byte)) :=
  (i2cHolds startPhases s).bind fun _ t =>
    (i2cWriteByte (addrByte addr true) t).bind fun acked u =>
      if acked then
        (i2cReadMany count [] u).bind fun data v =>
          (i2cHolds stopPhases v).bind fun _ w => .ok (some data) w
      else (i2cHolds stopPhases u).bind fun _ v => .ok none v

/-- The body of `I2C.XWRITE` (R189). -/
def i2cXwrite (addr : Byte) (data : List Byte) (s : State) : Res (Option Nat) :=
  (i2cHolds startPhases s).bind fun _ t =>
    (i2cWriteByte (addrByte addr false) t).bind fun acked u =>
      if acked then
        (i2cWriteMany data 0 u).bind fun k v =>
          (i2cHolds stopPhases v).bind fun _ w => .ok (some k) w
      else (i2cHolds stopPhases u).bind fun _ v => .ok none v

/-- `I2C.XREAD addr, count` (R188). -/
def execI2cXread (addr : Byte) (count : Nat) (s : State) : Host.Outcome State Fault Refusal :=
  runOp .i2cXread (needAddr addr) (i2cXread addr count) .optBytes s

/-- `I2C.XWRITE addr, data` (R189). -/
def execI2cXwrite (addr : Byte) (data : List Byte) (s : State) : Host.Outcome State Fault Refusal :=
  runOp .i2cXwrite (needAddr addr) (i2cXwrite addr data) .optNat s

end Sys2Proof.Machine
end

