-- ==== Sys2Proof/Machine/TapOps.lean ====
section
/-! DEFINITION. The TAP operations of the host: two pure lookups and the navigation (spec/42_tap.md R132, R135, R139). -/

namespace Sys2Proof.Machine

/-- `TAP.known` (R26, R298 (3)). -/
def needKnown (s : State) : Option (FaultCode × Detail) := check s.tapKnown .tapUnknown .nothing

/-- The pair is in the path table's domain (R134, R135). -/
def needPath (src dst : Tap) : Option (FaultCode × Detail) :=
  check (Tap.pathBits src dst).isSome .noPath (.path src dst)

/-- `bits(from, to)` where the pair has been checked. -/
def pathOf (src dst : Tap) : List Bool := (Tap.pathBits src dst).getD []

/-- `TAP.NEXT s, b`: a pure lookup (R132). -/
def execTapNext (t : Tap) (b : Bool) (s : State) : Host.Outcome State Fault Refusal :=
  runOp .tapNext needNothing (fun s => .ok (t.next b) s) .tap s

/-- `TAP.PATH from, to`: a pure lookup, or `NoPath` (R135). -/
def execTapPath (src dst : Tap) (s : State) : Host.Outcome State Fault Refusal :=
  runOp .tapPath (fun _ => needPath src dst) (fun s => .ok (pathOf src dst) s) .bits s

/-- The checks of `TAP.GOTO`, in its order (R139). -/
def needGoto (dst : Tap) (s : State) : Option (FaultCode × Detail) :=
  orElse (needProto .jtag s) (orElse (needKnown s) (needPath s.tapCur dst))

/-- The body of `TAP.GOTO`: the sequence emitted and flushed, then the mirror moved (R139). -/
def tapGoto (dst : Tap) (s : State) : Res (List Bool) :=
  (emit (tmsSeq (pathOf s.tapCur dst)) s).bind fun _ t =>
    (flush t).bind fun _ u => .ok (pathOf s.tapCur dst) { u with tapCur := dst }

/-- `TAP.GOTO to` (R139). -/
def execTapGoto (dst : Tap) (s : State) : Host.Outcome State Fault Refusal :=
  runOp .tapGoto (needGoto dst) (tapGoto dst) .bits s

end Sys2Proof.Machine
end

