-- ==== Sys2Proof/Machine/Jtag.lean ====
section
/-! DEFINITION. The JTAG controller: reset, end states, IR and DR scans (spec/43_jtag.md R150 to R158). -/

namespace Sys2Proof.Machine

/-- The body of `JTAG.RESET`: always the full run of ones, whatever the mirror holds (R150). With more than seven pulses
`TMS_SEQ` is several commands, and they go into the queue in one `emit`, with one overflow check over them all: DESIGN
CHOICE (log entry 40). -/
def jtagReset (s : State) : Res Unit :=
  (emit (tmsSeq (List.replicate s.par.resetPulses true)) s).bind fun _ t =>
    (flush t).bind fun _ u => .ok () { u with tapCur := .reset, tapKnown := true }

/-- `JTAG.RESET` (R150). -/
def execJtagReset (s : State) : Host.Outcome State Fault Refusal :=
  runOp .jtagReset (needProto .jtag) jtagReset (fun _ => .done) s

/-- The checks of the end-state setters: channel and protocol, then `stable(s)` (R153, R154, R293). -/
def needStable (t : Tap) (s : State) : Option (FaultCode × Detail) :=
  orElse (needProto .jtag s) (check (stable t) .configuration (.reason .notStable))

/-- `JTAG.SET_END_IR s` (R153). -/
def execJtagSetEndIr (t : Tap) (s : State) : Host.Outcome State Fault Refusal :=
  runOp .jtagSetEndIr (needStable t) (fun s => .ok () { s with endIr := t }) (fun _ => .done) s

/-- `JTAG.SET_END_DR s` (R154). -/
def execJtagSetEndDr (t : Tap) (s : State) : Host.Outcome State Fault Refusal :=
  runOp .jtagSetEndDr (needStable t) (fun s => .ok () { s with endDr := t }) (fun _ => .done) s

/-- The checks of a scan, in its order (R152, R298): channel and protocol, `TAP.known`, sizes, the path to the shift
state; and the path to the end state, which every reachable state has (log entry 23). -/
def needScan (shift exit1 fin : Tap) (n : Nat) (out : List Byte) (s : State) : Option (FaultCode × Detail) :=
  orElse (needProto .jtag s)
    (orElse (needKnown s)
      (orElse (sized .sizes (transferMisfit s.par n (jtagBytes n) out))
        (orElse (needPath s.tapCur shift) (needPath exit1 fin))))

/-- Steps 2 and 3 of a scan: whole bytes, then the partial group, one emit a command (R220; log entry 21); a command whose
count is 0 is left out (R151, R152). -/
def scanData (n : Nat) (out : List Byte) : List (List Byte) :=
  (if jtagBytes n = 0 then []
   else
    [[Config.opmap.ioBytesWnRpLsb, lo8 (jtagBytes n - 1), hi8 (jtagBytes n - 1)] ++ out.take (jtagBytes n)])
  ++ if jtagBits n = 0 then []
     else
      [[Config.opmap.ioBitsWnRpLsb, lo8 (jtagBits n - 1), lowBits (jtagBits n) (byteOf out (jtagBytes n))]]

/-- The emits of a scan, step by step (R152 steps 1 to 6). -/
def scanEmits (cur shift exit1 fin : Tap) (n : Nat) (out : List Byte) : List (List Byte) :=
  [tmsSeq (pathOf cur shift)] ++ scanData n out
    ++ [[Config.opmap.tmsrWnRp, 0, fusedByte ((byteOf out (jtagBytes n)).getLsbD (jtagBits n))],
        tmsSeq (pathOf exit1 fin), [Config.opmap.sendImm]]

/-- Response bytes of a scan (R152): one a whole byte, one for the partial group, one for the fused bit. -/
def scanReadLen (n : Nat) : Nat := jtagBytes n + partCount (jtagBits n) + 1

/-- The body of a scan: emitted, flushed, read, the mirror moved once, the response decoded (R152, R155). -/
def scan (shift exit1 fin : Tap) (n : Nat) (out : List Byte) (s : State) : Res (List Byte) :=
  (emitAll (scanEmits s.tapCur shift exit1 fin n out) s).bind fun _ t =>
    (flush t).bind fun _ u =>
      (readExact (scanReadLen n) u).bind fun resp v => .ok (scanDecode n resp) { v with tapCur := fin }

/-- `JTAG.SCAN_IR n, out` (R156). -/
def execJtagScanIr (n : Nat) (out : List Byte) (s : State) : Host.Outcome State Fault Refusal :=
  runOp .jtagScanIr (needScan .irShift .irExit1 s.endIr n out) (scan .irShift .irExit1 s.endIr n out) .bytes s

/-- `JTAG.SCAN_DR n, out` (R157). -/
def execJtagScanDr (n : Nat) (out : List Byte) (s : State) : Host.Outcome State Fault Refusal :=
  runOp .jtagScanDr (needScan .drShift .drExit1 s.endDr n out) (scan .drShift .drExit1 s.endDr n out) .bytes s

end Sys2Proof.Machine
end

