-- ==== Sys2Proof/Machine/Spi.lean ====
section
/-! DEFINITION. The SPI controller: the chip-select framer and the transfers (spec/44_spi.md R165 to R172). -/

namespace Sys2Proof.Machine

/-- The value byte of a chip-select change: only the select bit differs from the shadow (R165). -/
def csVal (v : Byte) (level : Bool) : Byte := (v &&& ~~~csMask) ||| (if level then csMask else 0)

/-- `CS_SEQ(level)`: the same pin-set `SPI_SETTLE_REPEAT` times, then the shadow, after the last of them (R165, and
95_test_vectors.md F7: not when an earlier one overflows the queue). -/
def csSeq (level : Bool) (s : State) : Res Unit :=
  (emitAll (List.replicate s.par.spiSettleRepeat (setLowBytes (csVal s.plVal level) s.plDir)) s).bind
    fun _ t => .ok () { t with plVal := csVal s.plVal level }

/-- The body of `SPI.ASSERT` (R166). -/
def spiAssert (s : State) : Res Unit := (csSeq (csActive s.spiCsActiveHigh) s).bind fun _ t => flush t

/-- The body of `SPI.CLEAR` (R171). -/
def spiClear (s : State) : Res Unit := (csSeq (csIdle s.spiCsActiveHigh) s).bind fun _ t => flush t

/-- `SPI.ASSERT` (R166). -/
def execSpiAssert (s : State) : Host.Outcome State Fault Refusal :=
  runOp .spiAssert (needProto .spi) spiAssert (fun _ => .done) s

/-- `SPI.CLEAR` (R171). -/
def execSpiClear (s : State) : Host.Outcome State Fault Refusal :=
  runOp .spiClear (needProto .spi) spiClear (fun _ => .done) s

/-- The read-write opcodes, byte and bit, of a mode (R168, R172: the table's row of mode 2 for every mode but 0). -/
def spiIoOps : SpiMode → Byte × Byte
  | .m0 => (Config.opmap.ioBytesWnRpMsb, Config.opmap.ioBitsWnRpMsb)
  | .m1 => (Config.opmap.ioBytesWpRnMsb, Config.opmap.ioBitsWpRnMsb)
  | .m2 => (Config.opmap.ioBytesWpRnMsb, Config.opmap.ioBitsWpRnMsb)
  | .m3 => (Config.opmap.ioBytesWpRnMsb, Config.opmap.ioBitsWpRnMsb)

/-- The write-only opcodes of a mode (R169, R172). -/
def spiOutOps : SpiMode → Byte × Byte
  | .m0 => (Config.opmap.outBytesWnMsb, Config.opmap.outBitsWnMsb)
  | .m1 => (Config.opmap.outBytesWpMsb, Config.opmap.outBitsWpMsb)
  | .m2 => (Config.opmap.outBytesWpMsb, Config.opmap.outBitsWpMsb)
  | .m3 => (Config.opmap.outBytesWpMsb, Config.opmap.outBitsWpMsb)

/-- The read-only opcodes of a mode (R170, R172). -/
def spiInOps : SpiMode → Byte × Byte
  | .m0 => (Config.opmap.inBytesRpMsb, Config.opmap.inBitsRpMsb)
  | .m1 => (Config.opmap.inBytesRnMsb, Config.opmap.inBitsRnMsb)
  | .m2 => (Config.opmap.inBytesRnMsb, Config.opmap.inBitsRnMsb)
  | .m3 => (Config.opmap.inBytesRnMsb, Config.opmap.inBitsRnMsb)

/-- The shifts of a transfer that writes: whole bytes, then the partial group's top bits (R167, R168), one emit a command
(R220; log entry 21). -/
def spiDataOut (ops : Byte × Byte) (n : Nat) (out : List Byte) : List (List Byte) :=
  (if spiBytes n = 0 then []
   else [[ops.1, lo8 (spiBytes n - 1), hi8 (spiBytes n - 1)] ++ out.take (spiBytes n)])
  ++ if spiBits n = 0 then [] else [[ops.2, lo8 (spiBits n - 1), topBits (spiBits n) (byteOf out (spiBytes n))]]

/-- The shifts of a transfer that only reads (R167, R170). -/
def spiDataIn (ops : Byte × Byte) (n : Nat) : List (List Byte) :=
  (if spiBytes n = 0 then [] else [[ops.1, lo8 (spiBytes n - 1), hi8 (spiBytes n - 1)]])
  ++ if spiBits n = 0 then [] else [[ops.2, lo8 (spiBits n - 1)]]

/-- Response bytes of a transfer (R168). -/
def spiReadLen (n : Nat) : Nat := spiBytes n + partCount (spiBits n)

/-- The count of a read that is out of range (R170). -/
def spiInMisfit (par : Config.Params) (n : Nat) : Option (Nat × Nat) :=
  (atLeastOne n).or (atMost (spiBytes n) par.maxBlock)

/-- The checks of a transfer with an out buffer (R168). -/
def needSpiOut (n : Nat) (out : List Byte) (s : State) : Option (FaultCode × Detail) :=
  orElse (needProto .spi s) (sized .sizes (transferMisfit s.par n (spiBytes n) out))

/-- The checks of a read (R170). -/
def needSpiIn (n : Nat) (s : State) : Option (FaultCode × Detail) :=
  orElse (needProto .spi s) (sized .sizes (spiInMisfit s.par n))

/-- The body of `SPI.TRANSACT`: the frame around the shifts, one flush, the response decoded (R168). -/
def spiTransact (n : Nat) (out : List Byte) (s : State) : Res (List Byte) :=
  (csSeq (csActive s.spiCsActiveHigh) s).bind fun _ t =>
    (emitAll (spiDataOut (spiIoOps s.spiMode) n out) t).bind fun _ u =>
      (csSeq (csIdle s.spiCsActiveHigh) u).bind fun _ v =>
        (emit [Config.opmap.sendImm] v).bind fun _ w =>
          (flush w).bind fun _ x =>
            (readExact (spiReadLen n) x).bind fun resp y => .ok (spiDecode n resp) y

/-- The body of `SPI.WRITE`: no select, no response (R169). -/
def spiWrite (n : Nat) (out : List Byte) (s : State) : Res Unit :=
  (emitAll (spiDataOut (spiOutOps s.spiMode) n out) s).bind fun _ t => flush t

/-- The body of `SPI.READ` (R170). -/
def spiRead (n : Nat) (s : State) : Res (List Byte) :=
  (emitAll (spiDataIn (spiInOps s.spiMode) n ++ [[Config.opmap.sendImm]]) s).bind fun _ t =>
    (flush t).bind fun _ u =>
      (readExact (spiReadLen n) u).bind fun resp v => .ok (spiDecode n resp) v

/-- `SPI.TRANSACT n, out` (R168). -/
def execSpiTransact (n : Nat) (out : List Byte) (s : State) : Host.Outcome State Fault Refusal :=
  runOp .spiTransact (needSpiOut n out) (spiTransact n out) .bytes s

/-- `SPI.WRITE n, out` (R169). -/
def execSpiWrite (n : Nat) (out : List Byte) (s : State) : Host.Outcome State Fault Refusal :=
  runOp .spiWrite (needSpiOut n out) (spiWrite n out) (fun _ => .done) s

/-- `SPI.READ n` (R170). -/
def execSpiRead (n : Nat) (s : State) : Host.Outcome State Fault Refusal :=
  runOp .spiRead (needSpiIn n) (spiRead n) .bytes s

end Sys2Proof.Machine
end

