-- ==== Sys2Proof/Machine/OpenClose.lean ====
section
/-! DEFINITION. The synchronization handshake, the three opens and close (spec/46_open_sync_close.md R205 to R213). -/

namespace Sys2Proof.Machine

/-! ## The handshake (R205) -/

/-- Step 1, the baseline: only on an enhanced chip, in its own flush (R205). -/
def baseline (s : State) : Res Unit :=
  if s.cap.enh then
    (emitAll [[Config.opmap.div5Off], [Config.opmap.adaptOff], [Config.opmap.ph3Off]] s).bind fun _ t => flush t
  else .ok () s

/-- Step 3 with a bound: at most `k + 1` calls of `count()` (R205). -/
def pollBounded : Nat → State → Res Unit
  | 0, s => (count s).bind fun n t => if n = 0 then .raised .transport .syncPollTimeout t else .ok () t
  | k + 1, s => (count s).bind fun n t => if n = 0 then pollBounded k t else .ok () t

/-- Step 3 without a bound: it ends only when the channel delivers, or its call fails; past the environment's last turn
nothing more comes and the poll holds for good (X13; log entry 24). -/
def pollUnbounded : List Turn → State → Res Unit
  | [], s => (count s).bind fun n t => if n = 0 then .held .handshakeHold else .ok () t
  | _ :: ts, s => (count s).bind fun n t => if n = 0 then pollUnbounded ts t else .ok () t

/-- Step 3: poll the input count until it is not zero (R205). -/
def poll (s : State) : Res Unit :=
  match s.par.syncPollLimit with
  | some limit => pollBounded (limit - 1) s
  | none => pollUnbounded s.chan.turns s

/-- The answer the engine must give (R205, R94). -/
def syncAnswer (marker : Byte) : List Byte := [marker, Config.opmap.bogus]

/-- Step 4: read two bytes and compare (R205, R292). -/
def verify (s : State) : Res Unit :=
  (readExact 2 s).bind fun r t => if r = syncAnswer t.chan.marker then .ok () t else .raised .synchronization (.got r) t

/-- The body of `MPSSE.SYNC` (R205). -/
def mpsseSync (s : State) : Res Unit :=
  (baseline s).bind fun _ t =>
    (emit [Config.opmap.bogus] t).bind fun _ u =>
      (flush u).bind fun _ v => (poll v).bind fun _ w => verify w

/-- `MPSSE.SYNC` (R205). -/
def execMpsseSync (s : State) : Host.Outcome State Fault Refusal :=
  runOp .mpsseSync needOpen mpsseSync (fun _ => .done) s

/-! ## Open (R206 to R211) -/

/-- `CH = CLOSED`, the first check of an open (R206, R293). -/
def needClosed (s : State) : Option (FaultCode × Detail) :=
  check (decide (s.ch = .closed)) .configuration (.reason .alreadyOpenOrDead)

/-- The capability queries, once each, in the order of R211; each can fail as every transport call can (R60). Their answers
are `chan.sup`. -/
def queryCaps (s : State) : Res Unit :=
  (setupCall (Chan.ask .supportsMpsse) .supportsMpsse s).bind fun _ t =>
    (setupCall (Chan.ask .supportsEnhanced) .supportsEnhanced t).bind fun _ u =>
      setupCall (Chan.ask .supportsOpenDrain) .supportsOpenDrain u

/-- An open (R206): `CH`, then the capability queries, then the checks on what they answered, then the body. A failed query
is no precondition fault, and it comes before the first `set_bit_mode`: `CH` stays `CLOSED` (R210, R296). -/
def runOpen {α : Type} (op : HostOp) (pre : State → Option (FaultCode × Detail)) (body : State → Res α)
    (give : α → Answer) (s : State) : Host.Outcome State Fault Refusal :=
  match needClosed s with
  | some f => .next (takeFault .check op f.1 f.2 s)
  | none =>
    match queryCaps s with
    | .ok _ t => runOp op pre body give t
    | .raised code info t => .next (takeFault .query op code info t)
    | .held f => .fault f

/-- `CAP_MPSSE`, the first check on the answers (R206). -/
def needMpsse (s : State) : Option (FaultCode × Detail) := check s.chan.sup.mpsse .configuration (.reason .noMpsse)

/-- The capability latch (R211), made when the checks have passed (log entry 20). -/
def State.latchCaps (s : State) : State := { s with cap := s.chan.sup }

/-- The transport setup calls, in their order (R206). -/
def openSetup (s : State) : Res Unit :=
  (setupCall (Chan.setBitMode 0 .reset) .setBitMode s).bind fun _ t =>
    (setupCall (Chan.setUsbSizes s.par.usbInSz s.par.usbOutSz) .setUsbSizes t).bind fun _ u =>
      (setupCall (Chan.setTimeouts s.par.rdTimeoutMs s.par.wrTimeoutMs) .setTimeouts u).bind fun _ v =>
        (setupCall (Chan.setLatency s.par.latencyMs) .setLatency v).bind fun _ w =>
          setupCall (Chan.setBitMode 0 .mpsse) .setBitMode w

/-- `OPEN_COMMON` after its checks (R206). -/
def openCommon (s : State) : Res Unit :=
  (openSetup s.latchCaps).bind fun _ t =>
    mpsseSync { t with qcur := 0, plVal := 0, plDir := 0, tapKnown := false }

/-- The body of `JTAG.OPEN` (R207). -/
def jtagOpen (hz : Nat) (s : State) : Res Divisor :=
  (openCommon s).bind fun _ t =>
    (clkConfigure hz t).bind fun d u =>
      (emit [Config.opmap.loopOff] u).bind fun _ v =>
        (setl ((v.plVal &&& upperMask) ||| csMask) ((v.plDir &&& upperMask) ||| outputMask) v).bind fun _ w =>
          (flush w).bind fun _ x =>
            (jtagReset { x with endIr := .idle, endDr := .idle, ch := .opened, proto := .jtag }).bind
              fun _ y => .ok d y

/-- `JTAG.OPEN hz` (R207). -/
def execJtagOpen (hz : Hertz) (s : State) : Host.Outcome State Fault Refusal :=
  runOpen .jtagOpen needMpsse (jtagOpen hz.toNat) .divisor s

/-- The idle levels of the SPI pins: the clock at `CPOL`, the select inactive, data-out low (R208). -/
def spiIdleVal (mode : SpiMode) (activeHigh : Bool) : Byte :=
  (if cpol mode then 0x01 else 0) ||| (if csIdle activeHigh then csMask else 0)

/-- The body of `SPI.OPEN` (R208). -/
def spiOpen (hz : Nat) (s : State) : Res Divisor :=
  (openCommon s).bind fun _ t =>
    (clkConfigure hz t).bind fun d u =>
      (emit [Config.opmap.loopOff] u).bind fun _ v =>
        (setl ((v.plVal &&& upperMask) ||| spiIdleVal s.spiMode s.spiCsActiveHigh)
            ((v.plDir &&& upperMask) ||| outputMask) v).bind fun _ w =>
          (flush w).bind fun _ x => .ok d { x with ch := .opened, proto := .spi }

/-- The checks of `SPI.OPEN`: the common ones, then the mode (R208). -/
def needSpiOpen (s : State) : Option (FaultCode × Detail) :=
  orElse (needMpsse s) (check (spiModeSupported s.spiMode) .configuration (.reason .unsupportedSpiMode))

/-- `SPI.OPEN hz` (R208). -/
def execSpiOpen (hz : Hertz) (s : State) : Host.Outcome State Fault Refusal :=
  runOpen .spiOpen needSpiOpen (spiOpen hz.toNat) .divisor s

/-- The frequency an I2C open configures: with 3-phase clocking the compensated request, one and a half times it, floored
(R191, R209). -/
def i2cHertz (par : Config.Params) (threePhase : Bool) (hz : Nat) : Nat :=
  if threePhase then par.threePhaseNum * hz / par.threePhaseDen else hz

/-- `OD_CFG` of the bus pins, on a chip with open-drain outputs (R209). -/
def i2cDrain (od : Bool) : List (List Byte) := if od then [[Config.opmap.odCfg, idleMask, 0]] else []

/-- `PH3_ON` when 3-phase clocking is requested (R209). -/
def i2cPhase3 (threePhase : Bool) : List (List Byte) := if threePhase then [[Config.opmap.ph3On]] else []

/-- The body of `I2C.OPEN` (R209). -/
def i2cOpen (hz : Nat) (s : State) : Res Divisor :=
  (openCommon s).bind fun _ t =>
    (emitAll (i2cPhase3 t.i2cThreePhase) t).bind fun _ u =>
      (clkConfigure (i2cHertz t.par t.i2cThreePhase hz) u).bind fun d v =>
        (emitAll ([[Config.opmap.loopOff]] ++ i2cDrain v.cap.od) v).bind fun _ w =>
          (i2cHold true .rel w).bind fun _ x =>
            (flush x).bind fun _ y => .ok d { y with ch := .opened, proto := .i2c }

/-- The checks of `I2C.OPEN`: the common ones, then that 3-phase clocking has an enhanced chip (R209). -/
def needI2cOpen (s : State) : Option (FaultCode × Detail) :=
  orElse (needMpsse s)
    (check (!s.i2cThreePhase || s.chan.sup.enh) .configuration (.reason .threePhaseNeedsEnhanced))

/-- `I2C.OPEN hz` (R209). -/
def execI2cOpen (hz : Hertz) (s : State) : Host.Outcome State Fault Refusal :=
  runOpen .i2cOpen needI2cOpen (i2cOpen hz.toNat) .divisor s

/-! ## Close (R212) -/

/-- `CH` is `OPEN` or `DEAD` (R212, R293). -/
def needNotClosed (s : State) : Option (FaultCode × Detail) :=
  check (decide (s.ch ≠ .closed)) .configuration (.reason .notOpen)

/-- The body of `CLOSE`: unflushed bytes dropped, the mode reset, the channel closed also when that call fails (R212). -/
def closeChannel (s : State) : Res Unit :=
  let r := s.chan.setBitMode 0 .reset
  let t := { s with qcur := 0, chan := r.2, ch := .closed, proto := .none, tapKnown := false }
  if r.1 then .ok () t else .raised .transport .close t

/-- `CLOSE` (R212). -/
def execClose (s : State) : Host.Outcome State Fault Refusal :=
  runOp .close needNotClosed closeChannel (fun _ => .done) s

end Sys2Proof.Machine
end

