-- ==== Sys2Proof/Machine/Queue.lean ====
section
/-! DEFINITION. The command queue operations of the host (spec/40_queue.md R110 to R114). -/

namespace Sys2Proof.Machine

/-- The checks of a raw append: the channel, then the capacity (R110, R111). -/
def needFit (bs : List Byte) (s : State) : Option (FaultCode × Detail) :=
  orElse (needOpen s) (check (s.fits bs) .sizing (s.overflow bs))

/-- `Q.ENQ b` (R110). -/
def execQEnq (b : Byte) (s : State) : Host.Outcome State Fault Refusal :=
  runOp .qEnq (needFit [b]) (emit [b]) (fun _ => .done) s

/-- `Q.ENQS s` (R111). -/
def execQEnqs (bs : List Byte) (s : State) : Host.Outcome State Fault Refusal :=
  runOp .qEnqs (needFit bs) (emit bs) (fun _ => .done) s

/-- `Q.FLUSH` (R112). -/
def execQFlush (s : State) : Host.Outcome State Fault Refusal :=
  runOp .qFlush needOpen flush (fun _ => .done) s

/-- `Q.READ n` (R113). -/
def execQRead (n : Nat) (s : State) : Host.Outcome State Fault Refusal :=
  runOp .qRead needOpen (readExact n) .bytes s

/-- `Q.COUNT` (R114). -/
def execQCount (s : State) : Host.Outcome State Fault Refusal :=
  runOp .qCount needOpen count .nat s

end Sys2Proof.Machine
end

