-- ==== Sys2Proof/Machine/Dispatch.lean ====
section
/-! DEFINITION. One arm for each row of spec/opcode_table.json, each one call of its meaning. -/

namespace Sys2Proof.Machine

def exec (i : Instr) (s : State) : Host.Outcome State Fault Refusal :=
  match i with
  | .outBytesWpMsb d => Sys2Proof.Machine.execOutBytesWpMsb d s
  | .outBytesWnMsb d => Sys2Proof.Machine.execOutBytesWnMsb d s
  | .outBytesWpLsb d => Sys2Proof.Machine.execOutBytesWpLsb d s
  | .outBytesWnLsb d => Sys2Proof.Machine.execOutBytesWnLsb d s
  | .outBitsWpMsb k d => Sys2Proof.Machine.execOutBitsWpMsb k d s
  | .outBitsWnMsb k d => Sys2Proof.Machine.execOutBitsWnMsb k d s
  | .outBitsWpLsb k d => Sys2Proof.Machine.execOutBitsWpLsb k d s
  | .outBitsWnLsb k d => Sys2Proof.Machine.execOutBitsWnLsb k d s
  | .inBytesRpMsb n => Sys2Proof.Machine.execInBytesRpMsb n s
  | .inBytesRnMsb n => Sys2Proof.Machine.execInBytesRnMsb n s
  | .inBytesRpLsb n => Sys2Proof.Machine.execInBytesRpLsb n s
  | .inBytesRnLsb n => Sys2Proof.Machine.execInBytesRnLsb n s
  | .inBitsRpMsb k => Sys2Proof.Machine.execInBitsRpMsb k s
  | .inBitsRnMsb k => Sys2Proof.Machine.execInBitsRnMsb k s
  | .inBitsRpLsb k => Sys2Proof.Machine.execInBitsRpLsb k s
  | .inBitsRnLsb k => Sys2Proof.Machine.execInBitsRnLsb k s
  | .ioBytesWnRpMsb d => Sys2Proof.Machine.execIoBytesWnRpMsb d s
  | .ioBytesWpRnMsb d => Sys2Proof.Machine.execIoBytesWpRnMsb d s
  | .ioBytesWnRpLsb d => Sys2Proof.Machine.execIoBytesWnRpLsb d s
  | .ioBytesWpRnLsb d => Sys2Proof.Machine.execIoBytesWpRnLsb d s
  | .ioBitsWnRpMsb k d => Sys2Proof.Machine.execIoBitsWnRpMsb k d s
  | .ioBitsWpRnMsb k d => Sys2Proof.Machine.execIoBitsWpRnMsb k d s
  | .ioBitsWnRpLsb k d => Sys2Proof.Machine.execIoBitsWnRpLsb k d s
  | .ioBitsWpRnLsb k d => Sys2Proof.Machine.execIoBitsWpRnLsb k d s
  | .tmsWp m d => Sys2Proof.Machine.execTmsWp m d s
  | .tmsWn m d => Sys2Proof.Machine.execTmsWn m d s
  | .tmsrWpRp m d => Sys2Proof.Machine.execTmsrWpRp m d s
  | .tmsrWnRp m d => Sys2Proof.Machine.execTmsrWnRp m d s
  | .tmsrWpRn m d => Sys2Proof.Machine.execTmsrWpRn m d s
  | .tmsrWnRn m d => Sys2Proof.Machine.execTmsrWnRn m d s
  | .setLow val dir => Sys2Proof.Machine.execSetLow val dir s
  | .getLow => Sys2Proof.Machine.execGetLow s
  | .setHigh val dir => Sys2Proof.Machine.execSetHigh val dir s
  | .getHigh => Sys2Proof.Machine.execGetHigh s
  | .loopOn => Sys2Proof.Machine.execLoopOn s
  | .loopOff => Sys2Proof.Machine.execLoopOff s
  | .setDiv d => Sys2Proof.Machine.execSetDiv d s
  | .sendImm => Sys2Proof.Machine.execSendImm s
  | .div5Off => Sys2Proof.Machine.execDiv5Off s
  | .div5On => Sys2Proof.Machine.execDiv5On s
  | .ph3On => Sys2Proof.Machine.execPh3On s
  | .ph3Off => Sys2Proof.Machine.execPh3Off s
  | .adaptOn => Sys2Proof.Machine.execAdaptOn s
  | .adaptOff => Sys2Proof.Machine.execAdaptOff s
  | .odCfg maskL maskH => Sys2Proof.Machine.execOdCfg maskL maskH s
  | .bogus => Sys2Proof.Machine.execBogus s
  | .qEnq b => Sys2Proof.Machine.execQEnq b s
  | .qEnqs bs => Sys2Proof.Machine.execQEnqs bs s
  | .qFlush => Sys2Proof.Machine.execQFlush s
  | .qRead n => Sys2Proof.Machine.execQRead n s
  | .qCount => Sys2Proof.Machine.execQCount s
  | .clkConfigure hz => Sys2Proof.Machine.execClkConfigure hz s
  | .tapNext t b => Sys2Proof.Machine.execTapNext t b s
  | .tapPath src dst => Sys2Proof.Machine.execTapPath src dst s
  | .tapGoto dst => Sys2Proof.Machine.execTapGoto dst s
  | .jtagReset => Sys2Proof.Machine.execJtagReset s
  | .jtagScanIr n out => Sys2Proof.Machine.execJtagScanIr n out s
  | .jtagScanDr n out => Sys2Proof.Machine.execJtagScanDr n out s
  | .jtagSetEndIr t => Sys2Proof.Machine.execJtagSetEndIr t s
  | .jtagSetEndDr t => Sys2Proof.Machine.execJtagSetEndDr t s
  | .spiAssert => Sys2Proof.Machine.execSpiAssert s
  | .spiClear => Sys2Proof.Machine.execSpiClear s
  | .spiTransact n out => Sys2Proof.Machine.execSpiTransact n out s
  | .spiWrite n out => Sys2Proof.Machine.execSpiWrite n out s
  | .spiRead n => Sys2Proof.Machine.execSpiRead n s
  | .i2cStart => Sys2Proof.Machine.execI2cStart s
  | .i2cRstart => Sys2Proof.Machine.execI2cRstart s
  | .i2cStop => Sys2Proof.Machine.execI2cStop s
  | .i2cWriteByte v => Sys2Proof.Machine.execI2cWriteByte v s
  | .i2cReadByte ack => Sys2Proof.Machine.execI2cReadByte ack s
  | .i2cXread addr count => Sys2Proof.Machine.execI2cXread addr count s
  | .i2cXwrite addr data => Sys2Proof.Machine.execI2cXwrite addr data s
  | .mpsseSync => Sys2Proof.Machine.execMpsseSync s
  | .jtagOpen hz => Sys2Proof.Machine.execJtagOpen hz s
  | .spiOpen hz => Sys2Proof.Machine.execSpiOpen hz s
  | .i2cOpen hz => Sys2Proof.Machine.execI2cOpen hz s
  | .close => Sys2Proof.Machine.execClose s
  | .mpsseEmit cmd => Sys2Proof.Machine.execMpsseEmit cmd s

end Sys2Proof.Machine
end

