-- ==== Sys2Proof/Machine/Fetch.lean ====
section
/-! DEFINITION. Which agent moves next and what it runs: the downstream engine while the flushed stream holds a command
(spec/20_memory.md R70), else the block with the request at the host port (30_encoding.md R98; log entries 1, 26, 27). -/

namespace Sys2Proof.Machine

/-- What the next step does: run an instruction in a state; take a step that runs none; or refuse. -/
inductive Fetched
  | run (i : Instr) (s : State)
  | pass (s : State)
  | refuse (r : Refusal)

/-- The request at the host port, once the engine has nothing to do; an empty port is an idle step (R16, log entry 26). -/
def fetchHost (s : State) : Fetched :=
  match s.port with
  | [] => .pass s
  | b :: bs =>
    match decodeHost (b :: bs) with
    | .ok p => .run p.1 { s with port := p.2 }
    | .error e => .refuse (.badRequest e)

/-- The engine's next command, the echo of an unrecognised opcode, or the host's next request. -/
def fetch (s : State) : Fetched :=
  match s.chan.engFetch with
  | .cmd i r => .run i { s with chan := { s.chan with tx := r } }
  | .unknown op r => .pass { s with chan := Chan.echo op { s.chan with tx := r } }
  | .short => fetchHost s

end Sys2Proof.Machine
end

