-- ==== Sys2Proof/Machine/Step.lean ====
section
/-! DEFINITION. One step of the machine, and the placing of a word where the next step fetches. -/

namespace Sys2Proof.Machine

/-- One step (spec/00_scope.md R5): of the engine while it has a command, else of the block. -/
def step (s : State) : Host.Outcome State Fault Refusal :=
  match fetch s with
  | .run i t => exec i t
  | .pass t => .next t
  | .refuse r => .refused r

/-- The state with a table word's instruction where the next step fetches: a Level M command is all of the flushed
stream; a host operation is all of the port, with nothing left for the engine (log entry 1). -/
def State.withFetchWord (s : State) (nbits w : Nat) : State :=
  match decode .m (tableBytes nbits w) with
  | some _ => { s with chan := { s.chan with tx := tableInstrBytes nbits w } }
  | none => { s with chan := { s.chan with tx := [] }, port := tableInstrBytes nbits w }

end Sys2Proof.Machine
end

