-- ==== Sys2Proof/WellFormed.lean ====
section
/-! DEFINITION. Which instructions have an encoding: operand ranges of the Level M formats (spec/30_encoding.md R81, R83 to
R86), and what the host port can carry (log entry 3). -/

namespace Sys2Proof

/-- A byte count a 16-bit count-minus-one field holds (R83). -/
def byteCountOk (n : Nat) : Bool := decide (1 ≤ n) && decide (n ≤ 65536)

/-- A bit count of a bit-oriented command (R84). -/
def bitCountOk (k : Nat) : Bool := decide (1 ≤ k) && decide (k ≤ 8)

/-- A clock count of a TMS command (R86). -/
def tmsCountOk (m : Nat) : Bool := decide (1 ≤ m) && decide (m ≤ 7)

/-- A natural operand fits the port's four bytes. -/
def portNatOk (n : Nat) : Bool := decide (n < 4294967296)

/-- A byte array's length fits the port's four bytes. -/
def portBytesOk (bs : List Byte) : Bool := portNatOk bs.length

/-- A command as the host names it fits the port; an unknown mnemonic is one outside R93. Its counts may be out of their
command's range: that is MPSSE.EMIT's own check (R276). -/
def MCmd.wellFormed : MCmd → Bool
  | .bytesW _ n d => portNatOk n && portBytesOk d
  | .bytesR _ n => portNatOk n
  | .bitsW _ k _ => portNatOk k
  | .bitsR _ k => portNatOk k
  | .tms _ m _ => portNatOk m
  | .pset _ _ _ => true
  | .noarg _ => true
  | .setDiv d => portNatOk d
  | .odCfg _ _ => true
  | .unknown op => (CmdKey.ofOpcode op).isNone

/-- The instruction has an encoding that the decoder reads back (obligation of tier 3 on encode and decode). -/
def Instr.wellFormed : Instr → Bool
  | .outBytesWpMsb d => byteCountOk d.length
  | .outBytesWnMsb d => byteCountOk d.length
  | .outBytesWpLsb d => byteCountOk d.length
  | .outBytesWnLsb d => byteCountOk d.length
  | .outBitsWpMsb k _ => bitCountOk k
  | .outBitsWnMsb k _ => bitCountOk k
  | .outBitsWpLsb k _ => bitCountOk k
  | .outBitsWnLsb k _ => bitCountOk k
  | .inBytesRpMsb n => byteCountOk n
  | .inBytesRnMsb n => byteCountOk n
  | .inBytesRpLsb n => byteCountOk n
  | .inBytesRnLsb n => byteCountOk n
  | .inBitsRpMsb k => bitCountOk k
  | .inBitsRnMsb k => bitCountOk k
  | .inBitsRpLsb k => bitCountOk k
  | .inBitsRnLsb k => bitCountOk k
  | .ioBytesWnRpMsb d => byteCountOk d.length
  | .ioBytesWpRnMsb d => byteCountOk d.length
  | .ioBytesWnRpLsb d => byteCountOk d.length
  | .ioBytesWpRnLsb d => byteCountOk d.length
  | .ioBitsWnRpMsb k _ => bitCountOk k
  | .ioBitsWpRnMsb k _ => bitCountOk k
  | .ioBitsWnRpLsb k _ => bitCountOk k
  | .ioBitsWpRnLsb k _ => bitCountOk k
  | .tmsWp m _ => tmsCountOk m
  | .tmsWn m _ => tmsCountOk m
  | .tmsrWpRp m _ => tmsCountOk m
  | .tmsrWnRp m _ => tmsCountOk m
  | .tmsrWpRn m _ => tmsCountOk m
  | .tmsrWnRn m _ => tmsCountOk m
  | .setLow _ _ => true
  | .getLow => true
  | .setHigh _ _ => true
  | .getHigh => true
  | .loopOn => true
  | .loopOff => true
  | .setDiv _ => true
  | .sendImm => true
  | .div5Off => true
  | .div5On => true
  | .ph3On => true
  | .ph3Off => true
  | .adaptOn => true
  | .adaptOff => true
  | .odCfg _ _ => true
  | .bogus => true
  | .qEnq _ => true
  | .qEnqs bs => portBytesOk bs
  | .qFlush => true
  | .qRead n => portNatOk n
  | .qCount => true
  | .clkConfigure _ => true
  | .tapNext _ _ => true
  | .tapPath _ _ => true
  | .tapGoto _ => true
  | .jtagReset => true
  | .jtagScanIr n out => portNatOk n && portBytesOk out
  | .jtagScanDr n out => portNatOk n && portBytesOk out
  | .jtagSetEndIr _ => true
  | .jtagSetEndDr _ => true
  | .spiAssert => true
  | .spiClear => true
  | .spiTransact n out => portNatOk n && portBytesOk out
  | .spiWrite n out => portNatOk n && portBytesOk out
  | .spiRead n => portNatOk n
  | .i2cStart => true
  | .i2cRstart => true
  | .i2cStop => true
  | .i2cWriteByte _ => true
  | .i2cReadByte _ => true
  | .i2cXread _ count => portNatOk count
  | .i2cXwrite _ data => portBytesOk data
  | .mpsseSync => true
  | .jtagOpen _ => true
  | .spiOpen _ => true
  | .i2cOpen _ => true
  | .close => true
  | .mpsseEmit cmd => cmd.wellFormed

end Sys2Proof
end

