-- ==== Sys2Proof/Safety.lean ====
section
/-! DEFINITION. What counts as a safe state, and the terms the statements use: the invariant every step keeps
(spec/10_state.md R40), the mirror of the target's TAP (R38), the state after a transaction has been sent, and the spec's
tables written down once more, apart from the meanings. -/

namespace Sys2Proof.Machine

/-! ## The invariant -/

/-- What every reachable state has: the queue within its capacity and its meaningful part written (R23, R24); the memory
in canonical form; stable end states (R28); `CH`, `PROTO` and `TAP.known` in step (R21, R22, R26); the mirror at a state
an operation can leave it in (R40); the capabilities latched (R211); the configuration checked (R208, R209). -/
structure Inv (s : State) : Prop where
  cursor : s.qcur ≤ s.par.qcap
  canonical : s.qbuf.wf = true
  inside : ∀ c ∈ s.qbuf, c.1 < s.par.qcap
  written : ∀ a < s.qcur, (s.qbuf.read a).isSome = true
  stableIr : stable s.endIr = true
  stableDr : stable s.endDr = true
  closedNone : s.ch = .closed → s.proto = .none
  openedSome : s.ch = .opened → s.proto ≠ .none
  knownJtag : s.tapKnown = true → s.proto = .jtag ∧ s.ch ≠ .closed
  mirrorRange : s.tapCur ∈ Tap.pathTargets
  latched : s.ch ≠ .closed → s.cap = s.chan.sup ∧ s.cap.mpsse = true
  spiChecked : s.proto = .spi → spiModeSupported s.spiMode = true
  i2cChecked : s.proto = .i2c → s.i2cThreePhase = true → s.cap.enh = true

/-! ## The mirror (R38) -/

/-- The engine drives TCK and TMS as ordinary outputs, as `JTAG.OPEN` leaves them (R207). -/
def Engine.drivesTap (e : Engine) : Bool :=
  e.lowDir.getLsbD clockBit && e.lowDir.getLsbD selectBit
    && !e.odLow.getLsbD clockBit && !e.odLow.getLsbD selectBit

/-- Once the engine has executed everything flushed, the target's TAP is where the mirror says (R38). -/
def Mirrored (s : State) : Prop := s.chan.settle.target = s.tapCur

/-! ## Transactions -/

/-- The channel agent answers the next transport call. -/
def Chan.accepts (c : Chan) : Bool :=
  match c.turns with
  | [] => true
  | .answers _ :: _ => true
  | .fails _ :: _ => false

/-- The queue is empty and `n` bytes fit it. -/
def State.room (s : State) (n : Nat) : Bool := decide (s.qcur = 0) && decide (n ≤ s.par.qcap)

/-- The state after `bs` has been buffered in an empty queue and flushed in one transfer (R51, R112). -/
def State.sent (s : State) (bs : List Byte) : State :=
  { s with qbuf := s.qbuf.writeList 0 bs, qcur := 0, chan := (s.chan.write bs).2 }

/-- The state after a host operation with its answer. -/
def State.answering (s : State) (a : Answer) : State := { s with answer := a }

/-- The state after a fault that changes nothing but the log (R296). -/
def State.logged (s : State) (code : FaultCode) (op : HostOp) (info : Detail) : State :=
  { s with flog := s.flog ++ [⟨code, op, info⟩], answer := .fault code }

/-- An instruction completes and leaves the target's TAP there. -/
def State.TargetAfter (s : State) (i : Instr) (dst : Tap) : Prop := ∃ t, exec i s = .next t ∧ t.chan.target = dst

/-- A count is out of range; the needed and the available size that are recorded (log entry 22). -/
def CountMisfits (n bound need available : Nat) : Prop :=
  (n = 0 ∧ need = 1 ∧ available = 0) ∨ (bound < n ∧ need = n ∧ available = bound)

/-- The first of a transfer's sizes that do not agree, in the order of R152 and R168: a count of 0, a buffer that is not
`ceil(n/8)` bytes, a byte command beyond `MAX_BLOCK`; the needed and the available size recorded (log entry 22). -/
def TransferMisfits (par : Config.Params) (n bytes : Nat) (out : List Byte) (need available : Nat) : Prop :=
  (n = 0 ∧ need = 1 ∧ available = 0)
    ∨ (1 ≤ n ∧ out.length ≠ (n + 7) / 8 ∧ need = (n + 7) / 8 ∧ available = out.length)
    ∨ (1 ≤ n ∧ out.length = (n + 7) / 8 ∧ par.maxBlock < bytes ∧ need = bytes ∧ available = par.maxBlock)

/-! ## Tables of the spec -/

/-- What a host operation requires of `CH` and `PROTO` (R293). -/
inductive Need
  | nothing | closed | notClosed | opened | proto (p : Proto)
  deriving DecidableEq, Repr

/-- The table of R293. -/
def needOf : HostOp → Need
  | .qEnq => .opened
  | .qEnqs => .opened
  | .qFlush => .opened
  | .qRead => .opened
  | .qCount => .opened
  | .clkConfigure => .opened
  | .tapNext => .nothing
  | .tapPath => .nothing
  | .tapGoto => .proto .jtag
  | .jtagReset => .proto .jtag
  | .jtagScanIr => .proto .jtag
  | .jtagScanDr => .proto .jtag
  | .jtagSetEndIr => .proto .jtag
  | .jtagSetEndDr => .proto .jtag
  | .spiAssert => .proto .spi
  | .spiClear => .proto .spi
  | .spiTransact => .proto .spi
  | .spiWrite => .proto .spi
  | .spiRead => .proto .spi
  | .i2cStart => .proto .i2c
  | .i2cRstart => .proto .i2c
  | .i2cStop => .proto .i2c
  | .i2cWriteByte => .proto .i2c
  | .i2cReadByte => .proto .i2c
  | .i2cXread => .proto .i2c
  | .i2cXwrite => .proto .i2c
  | .mpsseSync => .opened
  | .jtagOpen => .closed
  | .spiOpen => .closed
  | .i2cOpen => .closed
  | .close => .notClosed
  | .mpsseEmit => .opened

/-- The reason of the `ConfigurationError` a state earns under a requirement; none when it meets it (R293). -/
def Need.refuses (n : Need) (s : State) : Option CfgReason :=
  match n with
  | .nothing => none
  | .closed => if s.ch = .closed then none else some .alreadyOpenOrDead
  | .notClosed => if s.ch = .closed then some .notOpen else none
  | .opened => if s.ch = .opened then none else some .channelNotOpen
  | .proto p =>
    if s.ch = .opened then if s.proto = p then none else some .wrongProtocol else some .channelNotOpen

/-- The value and direction bytes of a phase, row by row of R181's table, the other six bits of the shadows kept. -/
def phasePins (od : Bool) (v d : Byte) (scl : Bool) (sda : Sda) : Byte × Byte :=
  match od, scl, sda with
  | true, true, .rel => ((v &&& 0xFC) ||| 0x03, (d &&& 0xFC) ||| 0x03)
  | true, true, .low => ((v &&& 0xFC) ||| 0x01, (d &&& 0xFC) ||| 0x03)
  | true, false, .low => (v &&& 0xFC, (d &&& 0xFC) ||| 0x03)
  | true, false, .rel => ((v &&& 0xFC) ||| 0x02, (d &&& 0xFC) ||| 0x03)
  | false, true, .rel => ((v &&& 0xFC) ||| 0x01, (d &&& 0xFC) ||| 0x01)
  | false, true, .low => ((v &&& 0xFC) ||| 0x01, (d &&& 0xFC) ||| 0x03)
  | false, false, .low => (v &&& 0xFC, (d &&& 0xFC) ||| 0x03)
  | false, false, .rel => (v &&& 0xFC, (d &&& 0xFC) ||| 0x01)

/-- One pin-set command of a phase. -/
def phaseCmd (s : State) (scl : Bool) (sda : Sda) : List Byte :=
  encodeCmd (.setLow (phasePins s.cap.od s.plVal s.plDir scl sda).1 (phasePins s.cap.od s.plVal s.plDir scl sda).2)

/-- The pin-set commands of a phase held (R182). -/
def holdCmds (s : State) (scl : Bool) (sda : Sda) : List Byte :=
  (List.replicate s.par.i2cRepeat (phaseCmd s scl sda)).flatten

/-- The shadows after a phase. -/
def State.afterPhase (s t : State) (scl : Bool) (sda : Sda) : State :=
  { s with
    plVal := (phasePins t.cap.od t.plVal t.plDir scl sda).1
    plDir := (phasePins t.cap.od t.plVal t.plDir scl sda).2 }

/-- The value byte of a chip-select change (R165). -/
def selectVal (v : Byte) (level : Bool) : Byte := if level then (v &&& 0xF7) ||| 0x08 else v &&& 0xF7

/-- The pin-set commands of a chip-select change (R165). -/
def selectCmds (s : State) (level : Bool) : List Byte :=
  (List.replicate s.par.spiSettleRepeat (encodeCmd (.setLow (selectVal s.plVal level) s.plDir))).flatten

/-- A command present only when its count is not 0 (R151, R167). -/
def cmdUnless (n : Nat) (i : Instr) : List Byte := if n = 0 then [] else encodeCmd i

/-- The order of a writing shift (R93). -/
def writeOrder : WriteOp → BitOrder
  | .outWpMsb => .msb
  | .outWnMsb => .msb
  | .outWpLsb => .lsb
  | .outWnLsb => .lsb
  | .ioWnRpMsb => .msb
  | .ioWpRnMsb => .msb
  | .ioWnRpLsb => .lsb
  | .ioWpRnLsb => .lsb

/-- The edge a writing shift changes data-out on (R93). -/
def writeEdge : WriteOp → Edge
  | .outWpMsb => .rising
  | .outWnMsb => .falling
  | .outWpLsb => .rising
  | .outWnLsb => .falling
  | .ioWnRpMsb => .falling
  | .ioWpRnMsb => .rising
  | .ioWnRpLsb => .falling
  | .ioWpRnLsb => .rising

/-- The edge a writing shift samples data-in on, if it does (R93). -/
def writeReads : WriteOp → Option Edge
  | .outWpMsb => none
  | .outWnMsb => none
  | .outWpLsb => none
  | .outWnLsb => none
  | .ioWnRpMsb => some .rising
  | .ioWpRnMsb => some .falling
  | .ioWnRpLsb => some .rising
  | .ioWpRnLsb => some .falling

/-- The order of a reading shift (R93). -/
def readOrder : ReadOp → BitOrder
  | .rpMsb => .msb
  | .rnMsb => .msb
  | .rpLsb => .lsb
  | .rnLsb => .lsb

/-- The edge a reading shift samples on (R93). -/
def readEdge : ReadOp → Edge
  | .rpMsb => .rising
  | .rnMsb => .falling
  | .rpLsb => .rising
  | .rnLsb => .falling

/-- The edge a TMS command changes TMS on (R93). -/
def tmsEdge : TmsOp → Edge
  | .wp => .rising
  | .wn => .falling
  | .wpRp => .rising
  | .wnRp => .falling
  | .wpRn => .rising
  | .wnRn => .falling

/-- The edge a TMS command samples on, if it does (R93). -/
def tmsReads : TmsOp → Option Edge
  | .wp => none
  | .wn => none
  | .wpRp => some .rising
  | .wnRp => some .rising
  | .wpRn => some .falling
  | .wnRn => some .falling

/-- The pulses `ps` are what the engine adds to the wire: only pulses, with the given levels of data-out and TMS, edges,
idle level and clocking; a sample on each one that reads (R221, R222). -/
def Chan.Clocked (c : Chan) (w r : Option Edge) (levels : List (Bool × Bool)) (d : Chan) (ps : List Pulse) : Prop :=
  d.wire = c.wire ++ ps.map .pulse
    ∧ ps.map (fun p => (p.dout, p.tms)) = levels
    ∧ ∀ p ∈ ps, p.write = w ∧ p.read = r ∧ p.din.isSome = r.isSome ∧ p.idle = c.eng.clockIdle
        ∧ p.threePhase = c.eng.threePhase ∧ p.adaptive = c.eng.adaptive

/-- The samples of a run of pulses. -/
def samplesOf (ps : List Pulse) : List Bool := ps.filterMap fun p => p.din

/-- The streams and the rest of the engine's settings are as before: what a shift leaves alone but for the pins it drives,
the bytes it gathers, the target, and the environment's lists. -/
def Chan.SameStreams (c d : Chan) : Prop :=
  d.tx = c.tx ∧ d.rx = c.rx ∧ d.sup = c.sup ∧ d.marker = c.marker ∧ d.inFlight = c.inFlight
    ∧ d.bitMode = c.bitMode ∧ d.calls = c.calls ∧ d.turns = c.turns ∧ d.pins = c.pins
    ∧ d.usbIn = c.usbIn ∧ d.usbOut = c.usbOut ∧ d.rdTimeout = c.rdTimeout ∧ d.wrTimeout = c.wrTimeout ∧ d.latency = c.latency
    ∧ d.eng.div5 = c.eng.div5 ∧ d.eng.divisor = c.eng.divisor ∧ d.eng.threePhase = c.eng.threePhase
    ∧ d.eng.adaptive = c.eng.adaptive ∧ d.eng.loopback = c.eng.loopback ∧ d.eng.odLow = c.eng.odLow
    ∧ d.eng.odHigh = c.eng.odHigh ∧ d.eng.lowDir = c.eng.lowDir ∧ d.eng.highVal = c.eng.highVal
    ∧ d.eng.highDir = c.eng.highDir

/-- The pins a run of pulses leaves: data-out and TMS at their last level, the others untouched. -/
def Chan.PinsAfter (c d : Chan) (levels : List (Bool × Bool)) : Prop :=
  d.eng.dataOut = (levels.getLast?.map Prod.fst).getD c.eng.dataOut
    ∧ d.eng.tmsLevel = (levels.getLast?.map Prod.snd).getD c.eng.tmsLevel
    ∧ ∀ i, i ≠ dataOutBit → i ≠ selectBit → d.eng.lowVal.getLsbD i = c.eng.lowVal.getLsbD i

/-- Where the sample of bit `i` of a whole byte stands in it (R96). -/
def bytePos : BitOrder → Nat → Nat
  | .msb, i => 7 - i
  | .lsb, i => i

/-- Where sample `i` of `k` stands in the response byte of a bit-oriented read (R96). -/
def bitPos : BitOrder → Nat → Nat → Nat
  | .msb, k, i => k - 1 - i
  | .lsb, k, i => 8 - k + i

/-- Response bytes that hold the samples, eight to a byte in the command's order (R96). -/
def BytesHold (ord : BitOrder) (samples : List Bool) (rs : List Byte) : Prop :=
  samples.length = 8 * rs.length
    ∧ ∀ j < rs.length, ∀ b < 8, (byteOf rs j).getLsbD (bytePos ord b) = samples.getD (8 * j + b) false

/-- A response byte that holds `k` samples where a bit-oriented read puts them; its other bits are stale (R96). -/
def BitsHold (ord : BitOrder) (k : Nat) (samples : List Bool) (r : Byte) : Prop :=
  samples.length = k ∧ ∀ i < k, r.getLsbD (bitPos ord k i) = samples.getD i false

/-- The response bytes not yet read, oldest first: in `RX`, under way to it, and gathered in the chip (R71). -/
def Chan.incoming (c : Chan) : List Byte := c.rx ++ c.inFlight ++ c.eng.gathered

/-- `RX` once `g` more response bytes have arrived, those under way first (R68, R71). -/
def Chan.arrived (c : Chan) (g : Nat) : List Byte := c.rx ++ (c.inFlight ++ c.eng.gathered).take g

/-- The channel has nothing under way, and its agent will answer every call and hand over all it has. -/
def Chan.Quiet (c : Chan) : Prop := c.turns = [] ∧ c.tx = [] ∧ c.incoming = []

/-- The bytes of a clock change (R123). -/
def clockCmds (par : Config.Params) (enh : Bool) (hz : Nat) : List Byte :=
  (if enh then encodeCmd (if par.fLo < hz then .div5Off else .div5On) else [])
    ++ encodeCmd (.setDiv (BitVec.ofNat 16 (clkDivisorFor par enh hz)))

/-- The commands of a scan (R152), in Level M's own terms. -/
def scanCmds (cur shift exit1 fin : Tap) (n : Nat) (out : List Byte) : List Byte :=
  tmsSeq (pathOf cur shift)
    ++ cmdUnless ((n - 1) / 8) (.ioBytesWnRpLsb (out.take ((n - 1) / 8)))
    ++ cmdUnless ((n - 1) % 8)
        (.ioBitsWnRpLsb ((n - 1) % 8) (byteOf out ((n - 1) / 8) &&& ((1#8 <<< ((n - 1) % 8)) - 1#8)))
    ++ encodeCmd (.tmsrWnRp 1 (if (byteOf out ((n - 1) / 8)).getLsbD ((n - 1) % 8) then 0x81 else 0x01))
    ++ tmsSeq (pathOf exit1 fin) ++ encodeCmd .sendImm

/-- The read-write shifts of a mode (R172). -/
def spiIoInstr (mode : SpiMode) (d : List Byte) : Instr :=
  if mode = .m0 then .ioBytesWnRpMsb d else .ioBytesWpRnMsb d

/-- The read-write bit shifts of a mode (R172). -/
def spiIoBitInstr (mode : SpiMode) (k : Nat) (d : Byte) : Instr :=
  if mode = .m0 then .ioBitsWnRpMsb k d else .ioBitsWpRnMsb k d

/-- The write-only shifts of a mode (R172). -/
def spiOutInstr (mode : SpiMode) (d : List Byte) : Instr :=
  if mode = .m0 then .outBytesWnMsb d else .outBytesWpMsb d

/-- The write-only bit shifts of a mode (R172). -/
def spiOutBitInstr (mode : SpiMode) (k : Nat) (d : Byte) : Instr :=
  if mode = .m0 then .outBitsWnMsb k d else .outBitsWpMsb k d

/-- The read-only shifts of a mode (R172). -/
def spiInInstr (mode : SpiMode) (n : Nat) : Instr := if mode = .m0 then .inBytesRpMsb n else .inBytesRnMsb n

/-- The read-only bit shifts of a mode (R172). -/
def spiInBitInstr (mode : SpiMode) (k : Nat) : Instr := if mode = .m0 then .inBitsRpMsb k else .inBitsRnMsb k

/-- The partial group of an SPI transfer: the top bits of its byte (R167). -/
def spiLastByte (n : Nat) (out : List Byte) : Byte := byteOf out (n / 8) &&& (0xFF#8 <<< (8 - n % 8))

/-- The commands of `SPI.TRANSACT` (R168). -/
def transactCmds (s : State) (n : Nat) (out : List Byte) : List Byte :=
  selectCmds s s.spiCsActiveHigh
    ++ cmdUnless (n / 8) (spiIoInstr s.spiMode (out.take (n / 8)))
    ++ cmdUnless (n % 8) (spiIoBitInstr s.spiMode (n % 8) (spiLastByte n out))
    ++ selectCmds s (!s.spiCsActiveHigh) ++ encodeCmd .sendImm

/-- The commands of `SPI.WRITE` (R169). -/
def spiWriteCmds (s : State) (n : Nat) (out : List Byte) : List Byte :=
  cmdUnless (n / 8) (spiOutInstr s.spiMode (out.take (n / 8)))
    ++ cmdUnless (n % 8) (spiOutBitInstr s.spiMode (n % 8) (spiLastByte n out))

/-- The commands of `SPI.READ` (R170). -/
def spiReadCmds (s : State) (n : Nat) : List Byte :=
  cmdUnless (n / 8) (spiInInstr s.spiMode (n / 8)) ++ cmdUnless (n % 8) (spiInBitInstr s.spiMode (n % 8))
    ++ encodeCmd .sendImm

/-- The commands of `I2C.START` (R183). -/
def startCmds (s : State) : List Byte := holdCmds s true .rel ++ holdCmds s true .low ++ holdCmds s false .low

/-- The commands of `I2C.RSTART` (R184). -/
def rstartCmds (s : State) : List Byte :=
  holdCmds s false .rel ++ holdCmds s true .rel ++ holdCmds s true .low ++ holdCmds s false .low

/-- The commands of `I2C.STOP` (R185). -/
def stopCmds (s : State) : List Byte := holdCmds s false .low ++ holdCmds s true .low ++ holdCmds s true .rel

/-- The commands of `I2C.WRITE_BYTE` (R186). -/
def writeByteCmds (s : State) (v : Byte) : List Byte :=
  phaseCmd s false .low ++ encodeCmd (.outBytesWnMsb [v]) ++ phaseCmd s false .rel
    ++ encodeCmd (.inBitsRpMsb 1) ++ encodeCmd .sendImm

/-- The transport calls of `I2C.WRITE_BYTE` on a channel that answers each (R186). -/
def writeByteCalls (s : State) (v : Byte) : List TCall := [.write (writeByteCmds s v), .read 1]

/-- The commands of `I2C.READ_BYTE` (R187). -/
def readByteCmds (s : State) (ack : Bool) : List Byte :=
  phaseCmd s false .rel ++ encodeCmd (.inBytesRpMsb 1) ++ phaseCmd s false .low
    ++ encodeCmd (.outBitsWnMsb 1 (if ack then 0x00 else 0x80)) ++ phaseCmd s false .rel ++ encodeCmd .sendImm

/-- The transport calls of `I2C.READ_BYTE` on a channel that answers each (R187). -/
def readByteCalls (s : State) (ack : Bool) : List TCall := [.write (readByteCmds s ack), .read 1]

/-- The address byte of a helper: the address in bits 7:1, 1 in bit 0 for a read (R188, R189). -/
def helperAddress (addr : Byte) (read : Bool) : Byte := BitVec.ofNat 8 (2 * addr.toNat + if read then 1 else 0)

/-- The transport calls of a helper up to its data: START, then the address byte (R188, R189). -/
def helperHead (s : State) (addr : Byte) (read : Bool) : List TCall :=
  .write (startCmds s) :: writeByteCalls s (helperAddress addr read)

/-- How many of the data bytes a slave acknowledges before the first it does not, from the levels at their acknowledge
clocks: low is an acknowledge (R186, R189). -/
def leadingAcks (data : List Byte) (acks : List Bool) : Nat := ((acks.take data.length).takeWhile fun b => !b).length

/-- An I2C helper ends at a transport fault after these calls: the fault recorded, no value given, nothing else of the
block changed but the queue and the shadows (R300). -/
def State.Abandons (s : State) (i : Instr) (op : HostOp) (info : Detail) (calls : List TCall) : Prop :=
  ∃ t, exec i s = .next t
    ∧ t = { s with
        qbuf := t.qbuf, qcur := 0, chan := t.chan, plVal := t.plVal, plDir := t.plDir, answer := .fault .transport,
        flog := s.flog ++ [⟨.transport, op, info⟩] }
    ∧ t.chan.calls = s.chan.calls ++ calls

/-- An open I2C channel ready for a transaction of so many bytes. -/
def I2cReady (s : State) (bytes : Nat) : Prop :=
  s.ch = .opened ∧ s.proto = .i2c ∧ s.room bytes = true ∧ s.chan.accepts = true ∧ 0 < s.par.i2cRepeat

/-- The capability queries of an open (R211). -/
def queryCalls : List TCall := [.supportsMpsse, .supportsEnhanced, .supportsOpenDrain]

/-- The channel agent answers the next three calls, an open's queries. -/
def Chan.answersQueries (c : Chan) : Bool :=
  (c.turns.take 3).all fun t => match t with
    | .answers _ => true
    | .fails _ => false

/-- The transport calls of an open before the handshake: the queries, then the setup (R206, R211). -/
def setupCalls (par : Config.Params) : List TCall :=
  queryCalls ++
  [.setBitMode 0 .reset, .setUsbSizes par.usbInSz par.usbOutSz, .setTimeouts par.rdTimeoutMs par.wrTimeoutMs,
   .setLatency par.latencyMs, .setBitMode 0 .mpsse]

/-- An open is refused after its queries: nothing changes but the log, the answer and the channel's record of them
(R210). -/
def State.RefusesOpen (s : State) (i : Instr) (op : HostOp) (r : CfgReason) : Prop :=
  ∃ t, exec i s = .next t ∧ t = { s.logged .configuration op (.reason r) with chan := t.chan }
    ∧ t.chan.calls = s.chan.calls ++ queryCalls

/-- The transport calls of the handshake (R205). -/
def syncCalls (enh : Bool) : List TCall :=
  (if enh then [.write [0x8A, 0x97, 0x8D]] else []) ++ [.write [0xAA], .count, .read 2]

/-- A closed channel that an open can work with: nothing under way, an MPSSE chip, a queue of at least 16 bytes, a
divisor register that holds `DIV_MAX`. -/
def OpenReady (s : State) : Prop :=
  s.ch = .closed ∧ s.chan.Quiet ∧ s.chan.sup.mpsse = true ∧ 16 ≤ s.par.qcap ∧ s.par.wf = true

/-- The host operation an instruction is (R98); none for Level M. -/
def hostOp : Instr → Option HostOp
  | .qEnq _ => some .qEnq
  | .qEnqs _ => some .qEnqs
  | .qFlush => some .qFlush
  | .qRead _ => some .qRead
  | .qCount => some .qCount
  | .clkConfigure _ => some .clkConfigure
  | .tapNext _ _ => some .tapNext
  | .tapPath _ _ => some .tapPath
  | .tapGoto _ => some .tapGoto
  | .jtagReset => some .jtagReset
  | .jtagScanIr _ _ => some .jtagScanIr
  | .jtagScanDr _ _ => some .jtagScanDr
  | .jtagSetEndIr _ => some .jtagSetEndIr
  | .jtagSetEndDr _ => some .jtagSetEndDr
  | .spiAssert => some .spiAssert
  | .spiClear => some .spiClear
  | .spiTransact _ _ => some .spiTransact
  | .spiWrite _ _ => some .spiWrite
  | .spiRead _ => some .spiRead
  | .i2cStart => some .i2cStart
  | .i2cRstart => some .i2cRstart
  | .i2cStop => some .i2cStop
  | .i2cWriteByte _ => some .i2cWriteByte
  | .i2cReadByte _ => some .i2cReadByte
  | .i2cXread _ _ => some .i2cXread
  | .i2cXwrite _ _ => some .i2cXwrite
  | .mpsseSync => some .mpsseSync
  | .jtagOpen _ => some .jtagOpen
  | .spiOpen _ => some .spiOpen
  | .i2cOpen _ => some .i2cOpen
  | .close => some .close
  | .mpsseEmit _ => some .mpsseEmit
  | .outBytesWpMsb .. => none
  | .outBytesWnMsb .. => none
  | .outBytesWpLsb .. => none
  | .outBytesWnLsb .. => none
  | .outBitsWpMsb .. => none
  | .outBitsWnMsb .. => none
  | .outBitsWpLsb .. => none
  | .outBitsWnLsb .. => none
  | .inBytesRpMsb .. => none
  | .inBytesRnMsb .. => none
  | .inBytesRpLsb .. => none
  | .inBytesRnLsb .. => none
  | .inBitsRpMsb .. => none
  | .inBitsRnMsb .. => none
  | .inBitsRpLsb .. => none
  | .inBitsRnLsb .. => none
  | .ioBytesWnRpMsb .. => none
  | .ioBytesWpRnMsb .. => none
  | .ioBytesWnRpLsb .. => none
  | .ioBytesWpRnLsb .. => none
  | .ioBitsWnRpMsb .. => none
  | .ioBitsWpRnMsb .. => none
  | .ioBitsWnRpLsb .. => none
  | .ioBitsWpRnLsb .. => none
  | .tmsWp .. => none
  | .tmsWn .. => none
  | .tmsrWpRp .. => none
  | .tmsrWnRp .. => none
  | .tmsrWpRn .. => none
  | .tmsrWnRn .. => none
  | .setLow .. => none
  | .getLow => none
  | .setHigh .. => none
  | .getHigh => none
  | .loopOn => none
  | .loopOff => none
  | .setDiv .. => none
  | .sendImm => none
  | .div5Off => none
  | .div5On => none
  | .ph3On => none
  | .ph3Off => none
  | .adaptOn => none
  | .adaptOff => none
  | .odCfg .. => none
  | .bogus => none

/-- The host operations that end with a flush (R40, with 92_eei_decisions.md D12). -/
def flushes : HostOp → Bool
  | .qEnq => false
  | .qEnqs => false
  | .qFlush => true
  | .qRead => false
  | .qCount => false
  | .clkConfigure => true
  | .tapNext => false
  | .tapPath => false
  | .tapGoto => true
  | .jtagReset => true
  | .jtagScanIr => true
  | .jtagScanDr => true
  | .jtagSetEndIr => false
  | .jtagSetEndDr => false
  | .spiAssert => true
  | .spiClear => true
  | .spiTransact => true
  | .spiWrite => true
  | .spiRead => true
  | .i2cStart => true
  | .i2cRstart => true
  | .i2cStop => true
  | .i2cWriteByte => true
  | .i2cReadByte => true
  | .i2cXread => true
  | .i2cXwrite => true
  | .mpsseSync => true
  | .jtagOpen => true
  | .spiOpen => true
  | .i2cOpen => true
  | .close => true
  | .mpsseEmit => false

end Sys2Proof.Machine
end

