-- ==== Sys2Proof/Certificates/Slice0/Obligations.lean ====
section
/-! DEFINITION. The statements for the provers, one definition each; OBLIGATIONS.json lists them. -/

open Sys2Proof Sys2Proof.Machine

/-- Decoding and encoding are inverse: every well-formed instruction, and every decoded command (R81, R83, R84,
R86, R88, R93, R98). The Level H layout after OPSEL is the model's own (log entry 3). -/
def Obligations.DecodeEncode : Prop :=
    (∀ (i : Instr) (rest : List Byte), i.wellFormed = true → decode i.level (encode i ++ rest) = some (i, rest))
    ∧ ∀ (bs : List Byte) (i : Instr) (r : List Byte), decodeCmd bs = .cmd i r → encodeCmd i ++ r = bs

/-- Words written out from the spec, and requests in the model's layout, decode to their instructions (R93, R98,
R99, R223). The host requests have the OPSEL of R98; the layout of the operands after it is the model's own
choice (log entry 3, DESIGN CHOICE), in TAP.NEXT, JTAG.SCAN_IR and MPSSE.EMIT. -/
def Obligations.WrittenWordsDecode : Prop :=
    decodeCmd [0x10, 0x01, 0x00, 0xA5, 0x3C] = .cmd (.outBytesWpMsb [0xA5, 0x3C]) []
    ∧ decodeCmd [0x20, 0xFF, 0xFF] = .cmd (.inBytesRpMsb 65536) []
    ∧ decodeCmd [0x33, 0x03, 0xC0] = .cmd (.ioBitsWnRpMsb 4 0xC0) []
    ∧ decodeCmd [0x22, 0x00, 0x87] = .cmd (.inBitsRpMsb 1) [0x87]
    ∧ decodeCmd [0x4B, 0x04, 0x1F] = .cmd (.tmsWn 5 0x1F) []
    ∧ decodeCmd [0x6B, 0x00, 0x81] = .cmd (.tmsrWnRp 1 0x81) []
    ∧ decodeCmd [0x80, 0x08, 0x0B] = .cmd (.setLow 0x08 0x0B) []
    ∧ decodeCmd [0x86, 0x5F, 0xEA] = .cmd (.setDiv 0xEA5F) []
    ∧ decodeCmd [0x9E, 0x03, 0x00] = .cmd (.odCfg 0x03 0x00) []
    ∧ decodeCmd [0xAA] = .cmd .bogus []
    ∧ decodeCmd [0x10, 0x01, 0x00, 0xA5] = .short
    ∧ decodeCmd [0x8E, 0x01] = .unknown 0x8E [0x01]
    ∧ decodeHost [0x30] = .ok (.jtagReset, [])
    ∧ decodeHost [0x20, 0x02, 0x01] = .ok (.tapNext .drSelect true, [])
    ∧ decodeHost [0x31, 8, 0, 0, 0, 1, 0, 0, 0, 0xFE] = .ok (.jtagScanIr 8 [0xFE], [])
    ∧ decodeHost [0x70, 0x81] = .ok (.mpsseEmit (.noarg .getLow), [])

/-- A step runs the decoded instruction (R88, R70, R98). Which agent moves first is the model's choice (log entry
27). -/
def Obligations.StepRunsDecoded : Prop :=
    (∀ (s : State) (i : Instr) (r : List Byte), decodeCmd s.chan.tx = .cmd i r →
      step s = exec i { s with chan := { s.chan with tx := r } })
    ∧ ∀ (s : State) (i : Instr) (r : List Byte), s.chan.engFetch = .short → decodeHost s.port = .ok (i, r) →
      step s = exec i { s with port := r }

/-- A byte that is no opcode is answered with the marker and itself and skipped (R95, R277). When the flushed
stream begins with a byte outside the 46 commands, the step takes that one byte off the stream, gathers the
bad-command marker (the parameter that is FA by default, log entry 39) and the byte, and changes nothing else. -/
def Obligations.UnrecognisedOpcodeIsEchoed : Prop :=
    ∀ (s : State) (op : Byte) (r : List Byte), s.chan.tx = op :: r → CmdKey.ofOpcode op = none →
      step s = .next { s with chan := { s.chan with
        tx := r, eng := { s.chan.eng with gathered := s.chan.eng.gathered ++ [s.chan.marker, op] } } }

/-- The eight byte shifts that write: pulses, levels, edges, responses, frame (R221, R223, R224, R225, R226, R239,
R240, R241, R242, R96). -/
def Obligations.ByteWritesClockTheirBits : Prop :=
    ∀ (o : WriteOp) (d : List Byte) (s : State),
      ∃ (t : State) (ps : List Pulse) (rs : List Byte), exec (o.bytesInstr d) s = .next t
        ∧ t = { s with chan := t.chan } ∧ s.chan.SameStreams t.chan
        ∧ s.chan.Clocked (some (writeEdge o)) (writeReads o)
            ((d.flatMap (bitsOf (writeOrder o))).map fun b => (b, s.chan.eng.tmsLevel)) t.chan ps
        ∧ s.chan.PinsAfter t.chan ((d.flatMap (bitsOf (writeOrder o))).map fun b => (b, s.chan.eng.tmsLevel))
        ∧ t.chan.eng.gathered = s.chan.eng.gathered ++ rs
        ∧ (writeReads o = none → rs = [])
        ∧ (writeReads o ≠ none → rs.length = d.length ∧ BytesHold (writeOrder o) (samplesOf ps) rs)

/-- The eight bit shifts that write: pulses, levels, edges, response, frame (R221, R227, R228, R229, R230, R243,
R244, R245, R246, R84, R96). OUT.BITS.WP.MSB, OUT.BITS.WN.MSB, OUT.BITS.WP.LSB, OUT.BITS.WN.LSB,
IO.BITS.WN_RP.MSB, IO.BITS.WP_RN.MSB, IO.BITS.WN_RP.LSB, IO.BITS.WP_RN.LSB complete from every state: k pulses
with the first k bits of the data byte in order (for a length field above 7, which the spec gives no meaning,
some count from 1 to 8: log entry 16), TMS held; the IO forms gather one byte whose captured bits stand where
the spec puts them. -/
def Obligations.BitWritesClockTheirBits : Prop :=
    ∀ (o : WriteOp) (k : Nat) (d : Byte) (s : State),
      ∃ (t : State) (ps : List Pulse) (rs : List Byte) (j : Nat),
        exec (o.bitsInstr k d) s = .next t ∧ 1 ≤ j ∧ j ≤ 8 ∧ (1 ≤ k ∧ k ≤ 8 → j = k)
        ∧ t = { s with chan := t.chan } ∧ s.chan.SameStreams t.chan
        ∧ s.chan.Clocked (some (writeEdge o)) (writeReads o)
            (((bitsOf (writeOrder o) d).take j).map fun b => (b, s.chan.eng.tmsLevel)) t.chan ps
        ∧ s.chan.PinsAfter t.chan (((bitsOf (writeOrder o) d).take j).map fun b => (b, s.chan.eng.tmsLevel))
        ∧ t.chan.eng.gathered = s.chan.eng.gathered ++ rs
        ∧ (writeReads o = none → rs = [])
        ∧ (writeReads o ≠ none → ∃ r, rs = [r] ∧ BitsHold (writeOrder o) j (samplesOf ps) r)

/-- The four byte shifts that only read: pulses, held data-out, responses, frame (R231, R232, R233, R234, R96). -/
def Obligations.ByteReadsSampleInOrder : Prop :=
    ∀ (o : ReadOp) (n : Nat) (s : State),
      ∃ (t : State) (ps : List Pulse) (rs : List Byte), exec (o.bytesInstr n) s = .next t
        ∧ t = { s with chan := t.chan } ∧ s.chan.SameStreams t.chan
        ∧ s.chan.Clocked none (some (readEdge o))
            (List.replicate (8 * n) (s.chan.eng.dataOut, s.chan.eng.tmsLevel)) t.chan ps
        ∧ t.chan.eng = { s.chan.eng with gathered := s.chan.eng.gathered ++ rs, lowVal := t.chan.eng.lowVal }
        ∧ (∀ i, t.chan.eng.lowVal.getLsbD i = s.chan.eng.lowVal.getLsbD i)
        ∧ rs.length = n ∧ BytesHold (readOrder o) (samplesOf ps) rs

/-- The four bit shifts that only read: pulses, held data-out, response, frame (R235, R236, R237, R238, R96).
IN.BITS.RP.MSB, IN.BITS.RN.MSB, IN.BITS.RP.LSB, IN.BITS.RN.LSB complete from every state: k pulses (some count
from 1 to 8 for a length field above 7, log entry 16) with data-out and TMS held, and one response byte whose
captured bits stand where the spec puts them. -/
def Obligations.BitReadsSampleInOrder : Prop :=
    ∀ (o : ReadOp) (k : Nat) (s : State),
      ∃ (t : State) (ps : List Pulse) (r : Byte) (j : Nat),
        exec (o.bitsInstr k) s = .next t ∧ 1 ≤ j ∧ j ≤ 8 ∧ (1 ≤ k ∧ k ≤ 8 → j = k)
        ∧ t = { s with chan := t.chan } ∧ s.chan.SameStreams t.chan
        ∧ s.chan.Clocked none (some (readEdge o))
            (List.replicate j (s.chan.eng.dataOut, s.chan.eng.tmsLevel)) t.chan ps
        ∧ (∀ i, t.chan.eng.lowVal.getLsbD i = s.chan.eng.lowVal.getLsbD i)
        ∧ t.chan.eng.gathered = s.chan.eng.gathered ++ [r] ∧ BitsHold (readOrder o) j (samplesOf ps) r

/-- The six TMS commands: control bits on TMS, bit 7 on data-out, response, frame (R86, R222, R247, R248, R249,
R250, R251, R252, R96). TMS.WP, TMS.WN, TMSR.WP_RP, TMSR.WN_RP, TMSR.WP_RN, TMSR.WN_RN complete from every
state: m pulses (some count from 1 to 7 for a length field above 6, log entry 16), pulse i with TMS at bit i
of the data byte and data-out at its bit 7; the pins stay at the last levels; the TMSR forms gather one byte
filled as by an LSB-first bit read. -/
def Obligations.TmsCommandsClockTheirBits : Prop :=
    ∀ (o : TmsOp) (m : Nat) (d : Byte) (s : State),
      ∃ (t : State) (ps : List Pulse) (rs : List Byte) (j : Nat),
        exec (o.instr m d) s = .next t ∧ 1 ≤ j ∧ j ≤ 7 ∧ (1 ≤ m ∧ m ≤ 7 → j = m)
        ∧ t = { s with chan := t.chan } ∧ s.chan.SameStreams t.chan
        ∧ s.chan.Clocked (some (tmsEdge o)) (tmsReads o)
            ((List.range j).map fun i => (d.getLsbD 7, d.getLsbD i)) t.chan ps
        ∧ s.chan.PinsAfter t.chan ((List.range j).map fun i => (d.getLsbD 7, d.getLsbD i))
        ∧ t.chan.eng.gathered = s.chan.eng.gathered ++ rs
        ∧ (tmsReads o = none → rs = [])
        ∧ (tmsReads o ≠ none → ∃ r, rs = [r] ∧ BitsHold .lsb j (samplesOf ps) r)

/-- The target TAP takes one successor a clock: TMS commands, and every data shift, reading or writing (R130,
R140, R221, R222). With TCK and TMS driven as plain outputs: a falling-edge TMS command (TMS.WN, TMSR.WN_RP,
TMSR.WN_RN) of m control bits leaves the target at the replay of those bits; every data shift, OUT, IN and IO,
byte or bit oriented, leaves it at the replay of the held TMS level once for each bit moved; so that in
DRSHIFT or IRSHIFT with TMS low each of them leaves it where it was, also with a length field of no stated
meaning (log entry 16). -/
def Obligations.TargetFollowsTheClocks : Prop :=
    ∀ s : State, s.chan.eng.drivesTap = true →
      (∀ (o : TmsOp) (m : Nat) (d : Byte), tmsEdge o = .falling → 1 ≤ m → m ≤ 7 →
        s.TargetAfter (o.instr m d) (s.chan.target.replay ((List.range m).map d.getLsbD)))
      ∧ (∀ o : WriteOp,
          (∀ d, s.TargetAfter (o.bytesInstr d)
            (s.chan.target.replay (List.replicate (8 * d.length) s.chan.eng.tmsLevel)))
          ∧ ∀ k d, 1 ≤ k → k ≤ 8 →
            s.TargetAfter (o.bitsInstr k d) (s.chan.target.replay (List.replicate k s.chan.eng.tmsLevel)))
      ∧ (∀ o : ReadOp,
          (∀ n, s.TargetAfter (o.bytesInstr n) (s.chan.target.replay (List.replicate (8 * n) s.chan.eng.tmsLevel)))
          ∧ ∀ k, 1 ≤ k → k ≤ 8 →
            s.TargetAfter (o.bitsInstr k) (s.chan.target.replay (List.replicate k s.chan.eng.tmsLevel)))
      ∧ ((s.chan.target = .drShift ∨ s.chan.target = .irShift) → s.chan.eng.tmsLevel = false →
        (∀ o : WriteOp, (∀ d, s.TargetAfter (o.bytesInstr d) s.chan.target)
          ∧ ∀ k d, s.TargetAfter (o.bitsInstr k d) s.chan.target)
        ∧ ∀ o : ReadOp, (∀ n, s.TargetAfter (o.bytesInstr n) s.chan.target)
          ∧ ∀ k, s.TargetAfter (o.bitsInstr k) s.chan.target)

/-- In loopback a capturing byte shift gathers the bytes it sends (R264, R221). -/
def Obligations.LoopbackReturnsWhatItSends : Prop :=
    ∀ (s : State) (o : WriteOp), s.chan.eng.loopback = true → writeReads o ≠ none →
      (∀ d, ∃ t, exec (o.bytesInstr d) s = .next t ∧ t.chan.eng.gathered = s.chan.eng.gathered ++ d)
      ∧ ∀ k d, 1 ≤ k → k ≤ 8 → ∃ t r, exec (o.bitsInstr k d) s = .next t
          ∧ t.chan.eng.gathered = s.chan.eng.gathered ++ [r]
          ∧ BitsHold (writeOrder o) k ((bitsOf (writeOrder o) d).take k) r

/-- SET_LOW and SET_HIGH latch value and direction, and nothing else but what TCK does to the target (R260, R262,
R329). What a doubtful edge does is the model's free value (log entry 18). -/
def Obligations.PinSetsLatchBothBytes : Prop :=
    ∀ (val dir : Byte) (s : State),
      (exec (.setHigh val dir) s = .next { s with chan := { s.chan with
          wire := s.chan.wire ++ [.high val dir], eng := { s.chan.eng with highVal := val, highDir := dir } } })
      ∧ ∃ t, exec (.setLow val dir) s = .next t
        ∧ t = { s with chan := { s.chan with
            wire := s.chan.wire ++ [.low val dir], eng := { s.chan.eng with lowVal := val, lowDir := dir },
            target := t.chan.target, fresh := t.chan.fresh } }
        ∧ ((t.chan.eng.lowLevel clockBit = some false ∨ s.chan.eng.lowLevel clockBit = some true
              ∨ (s.chan.eng.lowLevel clockBit = none ∧ t.chan.eng.lowLevel clockBit = none)) →
            t.chan.target = s.chan.target ∧ t.chan.fresh = s.chan.fresh)
        ∧ ∀ b, s.chan.eng.lowLevel clockBit = some false → t.chan.eng.lowLevel clockBit = some true →
            s.chan.eng.lowLevel selectBit = some b → t.chan.eng.lowLevel selectBit = some b →
            t.chan.target = s.chan.target.next b ∧ t.chan.fresh = s.chan.fresh

/-- GET_LOW and GET_HIGH gather the level of every pin and clock the bus (R261, R263, R274, R69). GET_LOW and
GET_HIGH complete from every state and gather one byte: a driven pin reads its value latch, any other pin the
level the environment gives it (the next entry of the environment's list, when there is one; log entry 14).
They clock the bus: at least one pulse is added to the wire; that the pulses hold the data-out and TMS levels
and sample nothing, and that their number is otherwise free, is the model's choice (log entry 42). -/
def Obligations.PinReadsGiveEveryPin : Prop :=
    ∀ s : State, ∀ x ∈ [(Instr.getLow, s.chan.eng.lowVal, s.chan.eng.lowDir, s.chan.eng.odLow),
        (.getHigh, s.chan.eng.highVal, s.chan.eng.highDir, s.chan.eng.odHigh)],
      ∃ (t : State) (b : Byte) (ps : List Pulse), exec x.1 s = .next t
        ∧ t = { s with chan := { s.chan with
            pins := s.chan.pins.tail, fresh := t.chan.fresh, target := t.chan.target, wire := t.chan.wire,
            eng := { s.chan.eng with gathered := s.chan.eng.gathered ++ [b] } } }
        ∧ ps ≠ [] ∧ s.chan.Clocked none none
            (List.replicate ps.length (s.chan.eng.dataOut, s.chan.eng.tmsLevel)) t.chan ps
        ∧ (s.chan.eng.drivesTap = true →
            t.chan.target = s.chan.target.replay (List.replicate ps.length s.chan.eng.tmsLevel))
        ∧ ∀ i < 8,
            ((drivenMask x.2.1 x.2.2.1 x.2.2.2).getLsbD i = true → b.getLsbD i = x.2.1.getLsbD i)
            ∧ ((drivenMask x.2.1 x.2.2.1 x.2.2.2).getLsbD i = false →
              ∀ p ∈ s.chan.pins.head?, b.getLsbD i = p.getLsbD i)

/-- LOOP_ON, LOOP_OFF, SET_DIV, SEND_IMM and BOGUS: what each changes and nothing else (R264, R265, R266, R273,
R275). From every state: LOOP_ON and LOOP_OFF set the loopback switch, SET_DIV the divisor in force, SEND_IMM
hands every gathered byte in order to the transport, which has yet to bring it to RX (log entry 32), BOGUS
gathers the bad-command marker (FA by default) and AA; each changes nothing else. -/
def Obligations.EngineSwitches : Prop :=
    ∀ (s : State) (d : Divisor),
      exec .loopOn s = .next { s with chan := { s.chan with eng := { s.chan.eng with loopback := true } } }
      ∧ exec .loopOff s = .next { s with chan := { s.chan with eng := { s.chan.eng with loopback := false } } }
      ∧ exec (.setDiv d) s = .next { s with chan := { s.chan with eng := { s.chan.eng with divisor := d } } }
      ∧ exec .sendImm s = .next { s with chan := { s.chan with
          inFlight := s.chan.inFlight ++ s.chan.eng.gathered, eng := { s.chan.eng with gathered := [] } } }
      ∧ exec .bogus s = .next { s with chan := { s.chan with
          eng := { s.chan.eng with gathered := s.chan.eng.gathered ++ [s.chan.marker, 0xAA] } } }

/-- DIV5, PH3, ADAPT and OD_CFG on a chip that has them (R267, R268, R269, R270, R271, R272, R274). On an enhanced
chip DIV5_OFF, DIV5_ON, PH3_ON, PH3_OFF, ADAPT_ON, ADAPT_OFF set their switch and nothing else; on a chip with
open-drain outputs OD_CFG sets both masks (that they replace the earlier ones, so that a pin whose bit is 0 is
push-pull again, is the model's choice, log entry 41), and nothing else but, where a floating TCK becomes
driven high, the target and the counter of free values (log entry 18). -/
def Obligations.GatedCommandsOnACapableChip : Prop :=
    ∀ s : State,
      (s.chan.sup.enh = true →
        exec .div5Off s = .next { s with chan := { s.chan with eng := { s.chan.eng with div5 := false } } }
        ∧ exec .div5On s = .next { s with chan := { s.chan with eng := { s.chan.eng with div5 := true } } }
        ∧ exec .ph3On s = .next { s with chan := { s.chan with eng := { s.chan.eng with threePhase := true } } }
        ∧ exec .ph3Off s = .next { s with chan := { s.chan with eng := { s.chan.eng with threePhase := false } } }
        ∧ exec .adaptOn s = .next { s with chan := { s.chan with eng := { s.chan.eng with adaptive := true } } }
        ∧ exec .adaptOff s = .next { s with chan := { s.chan with eng := { s.chan.eng with adaptive := false } } })
      ∧ (s.chan.sup.od = true → ∀ l h, ∃ t, exec (.odCfg l h) s = .next t
        ∧ t = { s with chan := { s.chan with
            eng := { s.chan.eng with odLow := l, odHigh := h },
            target := t.chan.target, fresh := t.chan.fresh } }
        ∧ (¬(s.chan.eng.lowLevel clockBit = none ∧ t.chan.eng.lowLevel clockBit = some true) →
            t.chan.target = s.chan.target ∧ t.chan.fresh = s.chan.fresh))

/-- A gated command on a chip without the capability is an unrecognised opcode (R97, R277). -/
def Obligations.GatedCommandsOnALesserChip : Prop :=
    ∀ s : State,
      (s.chan.sup.enh = false → ∀ p ∈ [(Instr.div5Off, 0x8A), (.div5On, 0x8B), (.ph3On, 0x8C), (.ph3Off, 0x8D),
          (.adaptOn, 0x96), (.adaptOff, 0x97)],
        exec p.1 s = .next { s with chan := { s.chan with
          eng := { s.chan.eng with gathered := s.chan.eng.gathered ++ [s.chan.marker, p.2] } } })
      ∧ (s.chan.sup.od = false → ∀ l h, exec (.odCfg l h) s = .next { s with chan := { s.chan with
          tx := l :: h :: s.chan.tx,
          eng := { s.chan.eng with gathered := s.chan.eng.gathered ++ [s.chan.marker, 0x9E] } } })

/-- Q.ENQ and Q.ENQS append the whole sequence or nothing (R110, R111, R296). -/
def Obligations.QueueAppends : Prop :=
    ∀ (s : State) (bs : List Byte), s.ch = .opened →
      (s.qcur + bs.length ≤ s.par.qcap → ∃ t, exec (.qEnqs bs) s = .next t
        ∧ t = { s with qbuf := t.qbuf, qcur := s.qcur + bs.length, answer := .done }
        ∧ (∀ i < bs.length, t.qbuf.read (s.qcur + i) = bs[i]?)
        ∧ (∀ a, (a < s.qcur ∨ s.qcur + bs.length ≤ a) → t.qbuf.read a = s.qbuf.read a)
        ∧ ∀ b, bs = [b] → exec (.qEnq b) s = .next t)
      ∧ (s.par.qcap < s.qcur + bs.length →
        exec (.qEnqs bs) s = .next (s.logged .sizing .qEnqs (.queueOverflow bs.length (s.par.qcap - s.qcur)))
        ∧ ∀ b, bs = [b] →
          exec (.qEnq b) s = .next (s.logged .sizing .qEnq (.queueOverflow 1 (s.par.qcap - s.qcur))))

/-- Q.FLUSH sends the buffered region in one write and empties the queue, also when the write fails (R112, R61,
R74, R291, R296). -/
def Obligations.FlushSendsTheRegion : Prop :=
    ∀ s : State, s.ch = .opened →
      (s.qcur = 0 → exec .qFlush s = .next { s with answer := .done })
      ∧ (s.qcur ≠ 0 → s.chan.accepts = true → (∀ a < s.qcur, (s.qbuf.read a).isSome = true) →
        ∃ t bs, exec .qFlush s = .next t ∧ t = { s with qcur := 0, answer := .done, chan := t.chan }
          ∧ bs.length = s.qcur ∧ (∀ a < s.qcur, s.qbuf.read a = bs[a]?)
          ∧ t.chan.tx = s.chan.tx ++ bs ∧ t.chan.calls = s.chan.calls ++ [.write bs]
          ∧ t.chan.incoming = s.chan.incoming)
      ∧ (s.qcur ≠ 0 → s.chan.accepts = false → ∃ t, exec .qFlush s = .next t
          ∧ t = { s with
              qcur := 0, chan := t.chan, answer := .fault .transport,
              tapKnown := s.tapKnown && !decide (s.proto = .jtag),
              flog := s.flog ++ [⟨.transport, .qFlush, .write⟩] })

/-- Q.READ n returns the next n bytes, in one chunk or in several, and removes them; short of n it is
TransportFault (R113, R62, R69, R291, R296). With nothing left for the engine to execute, and whatever is in
RX, under way to it or gathered: past the agent's last turn n incoming bytes are returned in order and removed
by one call, and fewer than n are TransportFault with their number, RX left empty (that the timeout elapses
there is the model's choice, log entry 11). -/
def Obligations.ReadReturnsExactlyN : Prop :=
    ∀ (s : State) (n : Nat), s.ch = .opened →
      (n = 0 → exec (.qRead n) s = .next { s with answer := .bytes [] })
      ∧ (0 < n → s.chan.tx = [] → s.chan.turns = [] → n ≤ s.chan.incoming.length →
        ∃ t, exec (.qRead n) s = .next t
          ∧ t = { s with chan := t.chan, answer := .bytes (s.chan.incoming.take n) }
          ∧ t.chan.rx = s.chan.incoming.drop n
          ∧ t.chan.calls = s.chan.calls ++ [.read n])
      ∧ (s.chan.tx = [] → s.chan.turns = [] → s.chan.incoming.length < n →
        ∃ t, exec (.qRead n) s = .next t
          ∧ t = { s with
              qcur := 0, chan := t.chan, answer := .fault .transport,
              tapKnown := s.tapKnown && !decide (s.proto = .jtag),
              flog := s.flog ++ [⟨.transport, .qRead, .read s.chan.incoming.length⟩] }
          ∧ t.chan.rx = [])
      ∧ ∀ (g : Nat) (ts : List Turn), s.chan.tx = [] → (s.chan.arrived g).length < n →
        (∀ h, s.chan.turns = .answers g :: .answers h :: ts → n ≤ (s.chan.arrived (g + h)).length →
          ∃ t, exec (.qRead n) s = .next t
            ∧ t = { s with chan := t.chan, answer := .bytes (s.chan.incoming.take n) }
            ∧ t.chan.incoming = s.chan.incoming.drop n ∧ t.chan.turns = ts
            ∧ t.chan.calls = s.chan.calls ++ [.read n, .read (n - (s.chan.arrived g).length)])
        ∧ ∀ k, s.chan.turns = .answers g :: .fails k :: ts →
          ∃ t, exec (.qRead n) s = .next t
            ∧ t = { s with
                qcur := 0, chan := t.chan, answer := .fault .transport,
                tapKnown := s.tapKnown && !decide (s.proto = .jtag),
                flog := s.flog ++ [⟨.transport, .qRead, .read (s.chan.arrived g).length⟩] }
            ∧ t.chan.rx = [] ∧ t.chan.incoming = s.chan.incoming.drop (s.chan.arrived g).length

/-- Q.COUNT returns the length of RX, which grows by what arrives, and consumes nothing (R114, R63, R68). -/
def Obligations.CountReturnsTheLengthOfRx : Prop :=
    ∀ (s : State) (ts : List Turn), s.ch = .opened → s.chan.tx = [] →
      (∀ g, s.chan.turns = .answers g :: ts → ∃ t, exec .qCount s = .next t
        ∧ t = { s with answer := .nat (s.chan.arrived g).length, chan := { s.chan with
            turns := ts, calls := s.chan.calls ++ [.count], rx := s.chan.arrived g,
            inFlight := t.chan.inFlight, eng := { s.chan.eng with gathered := t.chan.eng.gathered } } }
        ∧ t.chan.incoming = s.chan.incoming)
      ∧ ∀ k, s.chan.turns = .fails k :: ts → exec .qCount s = .next { s with
          qcur := 0, answer := .fault .transport, tapKnown := s.tapKnown && !decide (s.proto = .jtag),
          flog := s.flog ++ [⟨.transport, .qCount, .count⟩],
          chan := { s.chan with turns := ts, calls := s.chan.calls ++ [.count] } }

/-- The divisor is the least admissible one, 0xFFFF when there is none or the request is 0 Hz (R122). -/
def Obligations.DivisorIsTheLeast : Prop :=
    ∀ base hz : Nat, 1 ≤ base →
      (∀ d ≤ 0xFFFF, base ≤ 2 * (1 + d) * hz → (∀ e < d, ¬ base ≤ 2 * (1 + e) * hz) →
        clkDivisor 0xFFFF base hz = d)
      ∧ ((∀ d ≤ 0xFFFF, ¬ base ≤ 2 * (1 + d) * hz) → clkDivisor 0xFFFF base hz = 0xFFFF)
      ∧ clkDivisor 0xFFFF base 0 = 0xFFFF
      ∧ (1 ≤ hz → clkDivisor 0xFFFF base hz = min 0xFFFF ((base + (2 * hz - 1)) / (2 * hz) - 1))

/-- The actual rate never exceeds the request and grows with it (R124). -/
def Obligations.ClockRateIsBoundedAndMonotone : Prop :=
    ∀ (enh : Bool) (hz : Nat), 100 ≤ hz → hz ≤ 60000000 →
      clkBase Config.params enh hz ≤ 2 * (1 + clkDivisorFor Config.params enh hz) * hz
      ∧ clkDivisorFor Config.params enh hz ≤ 0xFFFF
      ∧ (∀ hz', hz ≤ hz' → hz' ≤ 60000000 →
          clkBase Config.params enh hz * (2 * (1 + clkDivisorFor Config.params enh hz'))
            ≤ clkBase Config.params enh hz' * (2 * (1 + clkDivisorFor Config.params enh hz)))
      ∧ clkBase Config.params enh hz ≤
          2 * (1 + clkDivisorFor Config.params enh hz) * (if enh && decide (12000000 < hz) then 30000000 else 6000000)
      ∧ clkDivisorFor Config.params true 30000000 = 0 ∧ clkBase Config.params true 30000000 = 60000000
      ∧ clkDivisorFor Config.params enh 6000000 = 0 ∧ clkBase Config.params enh 6000000 = 12000000
      ∧ clkDivisorFor Config.params true 12000001 = 2

/-- CLK.CONFIGURE sends the prescaler command when there is one, then SET_DIV, and returns the divisor (R120,
R121, R123). -/
def Obligations.ClockConfigureSendsPrescalerThenDivisor : Prop :=
    ∀ (s : State) (hz : Hertz), s.ch = .opened → s.par.wf = true → s.chan.accepts = true →
      s.room (clockCmds s.par s.cap.enh hz.toNat).length = true →
      exec (.clkConfigure hz) s = .next ((s.sent (clockCmds s.par s.cap.enh hz.toNat)).answering
        (.divisor (BitVec.ofNat 16 (clkDivisorFor s.par s.cap.enh hz.toNat))))

/-- TAP.NEXT is the table of R131, total and pure (R131, R132). -/
def Obligations.TapGraphIsTheTable : Prop :=
    (∀ (s : State) (t : Tap) (b : Bool), exec (.tapNext t b) s = .next { s with answer := .tap (t.next b) })
    ∧ Tap.all.map (fun t => (t.next false, t.next true)) =
      [(.idle, .reset), (.idle, .drSelect), (.drCapture, .irSelect), (.drShift, .drExit1), (.drShift, .drExit1),
       (.drPause, .drUpdate), (.drPause, .drExit2), (.drShift, .drUpdate), (.idle, .drSelect), (.irCapture, .reset),
       (.irShift, .irExit1), (.irShift, .irExit1), (.irPause, .irUpdate), (.irPause, .irExit2), (.irShift, .irUpdate),
       (.idle, .drSelect)]

/-- Five ones reach RESET from every state, and four do not (R133). -/
def Obligations.FiveOnesReset : Prop :=
    (∀ s : Tap, s.replay [] = s) ∧ (∀ (s : Tap) (b : Bool) (bs : List Bool), s.replay (b :: bs) = (s.next b).replay bs)
    ∧ (∀ s : Tap, s.replay [true, true, true, true, true] = .reset)
    ∧ Tap.replay .drShift [true, true, true, true] = .irSelect
    ∧ Tap.replay .drPause [true, true, true, true] = .irSelect
    ∧ ∀ k < 5, ∃ s : Tap, s.replay (List.replicate k true) ≠ .reset

/-- TAP.PATH gives the unique shortest walk for all 48 pairs, through the entry's states, and is pure (R134, R135,
R136, R137). -/
def Obligations.PathIsTheShortestWalk : Prop :=
    Tap.pathSources.length * Tap.pathTargets.length = 48
    ∧ ∀ (s : State) (src dst : Tap), src ∈ Tap.pathSources → dst ∈ Tap.pathTargets →
      ∃ p bs, exec (.tapPath src dst) s = .next { s with answer := .bits bs }
        ∧ Tap.path src dst = some p ∧ bs.length = p.length ∧ src.replay bs = dst
        ∧ (∀ k < p.length, p[k]? = some (src.replay (bs.take (k + 1))))
        ∧ ∀ cs : List Bool, src.replay cs = dst → cs.length ≤ bs.length → cs = bs

/-- A pair outside the path table is NoPath and changes nothing but FLOG and the answer (R135, R139, R296). -/
def Obligations.PathOutsideTheTableIsNoPath : Prop :=
    ∀ (s : State) (src dst : Tap), ¬ (src ∈ Tap.pathSources ∧ dst ∈ Tap.pathTargets) →
      exec (.tapPath src dst) s = .next (s.logged .noPath .tapPath (.path src dst))
      ∧ (s.ch = .opened → s.proto = .jtag → s.tapKnown = true → s.tapCur = src →
        exec (.tapGoto dst) s = .next (s.logged .noPath .tapGoto (.path src dst)))

/-- TMS_SEQ cuts a bit sequence into TMS.WN commands of seven bits, the last one shorter (R138, R54, R86). -/
def Obligations.TmsSequencePacksSevenBitsACommand : Prop :=
    ∀ bits : List Bool, ∃ l : List (Nat × Byte),
      tmsSeq bits = l.flatMap (fun p => encodeCmd (.tmsWn p.1 p.2))
      ∧ (∀ p ∈ l, 1 ≤ p.1 ∧ p.1 ≤ 7 ∧ ∀ i, p.1 ≤ i → p.2.getLsbD i = false)
      ∧ (∀ p ∈ l.dropLast, p.1 = 7)
      ∧ l.flatMap (fun p => (List.range p.1).map p.2.getLsbD) = bits

/-- TAP.GOTO drives the target along the path and moves the mirror with it (R139, R38, R140). -/
def Obligations.GotoMovesMirrorAndTarget : Prop :=
    ∀ (s : State) (dst : Tap), s.ch = .opened → s.proto = .jtag → s.tapKnown = true →
      s.tapCur ∈ Tap.pathSources → dst ∈ Tap.pathTargets → s.room 3 = true → s.chan.accepts = true →
      ∃ t bs, exec (.tapGoto dst) s = .next t ∧ Tap.pathBits s.tapCur dst = some bs ∧ s.tapCur.replay bs = dst
        ∧ t = { s with qbuf := t.qbuf, tapCur := dst, chan := t.chan, answer := .bits bs }
        ∧ (s.tapCur = dst → bs = [] ∧ t.chan = s.chan)
        ∧ (s.tapCur ≠ dst → t.chan.calls = s.chan.calls ++ [.write (tmsSeq bs)]
            ∧ t.chan.tx = s.chan.tx ++ tmsSeq bs)
        ∧ (s.chan.tx = [] → s.chan.eng.drivesTap = true → Mirrored s → Mirrored t)

/-- JTAG.RESET sends the ones whatever the mirror holds and makes mirror and target RESET (R150, R133, R38). -/
def Obligations.JtagResetRestoresTheMirror : Prop :=
    ∀ s : State, s.ch = .opened → s.proto = .jtag → 0 < s.par.resetPulses → s.chan.accepts = true →
      s.room (tmsSeq (List.replicate s.par.resetPulses true)).length = true →
      ∃ t, exec .jtagReset s = .next t
        ∧ t = { s.sent (tmsSeq (List.replicate s.par.resetPulses true)) with
            tapCur := .reset, tapKnown := true, answer := .done }
        ∧ (s.chan.tx = [] → s.chan.eng.drivesTap = true → 5 ≤ s.par.resetPulses → t.chan.settle.target = .reset)

/-- JTAG.SET_END_IR and SET_END_DR accept exactly the stable states, each its own register (R153, R154, R27). -/
def Obligations.EndStatesTakeStableStatesOnly : Prop :=
    ∀ (s : State) (e : Tap), s.ch = .opened → s.proto = .jtag →
      (e ∈ [Tap.reset, .idle, .drPause, .irPause] →
        exec (.jtagSetEndIr e) s = .next { s with endIr := e, answer := .done }
        ∧ exec (.jtagSetEndDr e) s = .next { s with endDr := e, answer := .done })
      ∧ (e ∉ [Tap.reset, .idle, .drPause, .irPause] →
        exec (.jtagSetEndIr e) s = .next (s.logged .configuration .jtagSetEndIr (.reason .notStable))
        ∧ exec (.jtagSetEndDr e) s = .next (s.logged .configuration .jtagSetEndDr (.reason .notStable)))

/-- A scan sends its commands in one write, reads B + (r > 0) + 1 bytes, decodes them and moves the mirror (R151,
R152, R155, R156, R157, R158, R296). -/
def Obligations.ScanSendsReadsAndDecodes : Prop :=
    ∀ (s : State) (n : Nat) (out : List Byte) (r : Except Nat (List Byte)) (c : Chan),
      s.ch = .opened → s.proto = .jtag → s.tapKnown = true → s.tapCur ∈ Tap.pathSources →
      1 ≤ n → out.length = (n + 7) / 8 → (n - 1) / 8 ≤ s.par.maxBlock → s.chan.accepts = true →
      ∀ x ∈ [(Instr.jtagScanDr n out, HostOp.jtagScanDr, Tap.drShift, Tap.drExit1, s.endDr),
          (.jtagScanIr n out, .jtagScanIr, .irShift, .irExit1, s.endIr)],
        stable x.2.2.2.2 = true →
        ∀ cmds, cmds = scanCmds s.tapCur x.2.2.1 x.2.2.2.1 x.2.2.2.2 n out → s.room cmds.length = true →
        (s.sent cmds).chan.readExact ((n - 1) / 8 + (if (n - 1) % 8 = 0 then 0 else 1) + 1) = (r, c) →
        (∀ resp, r = .ok resp → exec x.1 s = .next { s.sent cmds with
          tapCur := x.2.2.2.2, chan := c, answer := .bytes (scanDecode n resp) })
        ∧ ∀ got, r = .error got → exec x.1 s = .next { s.sent cmds with
          tapKnown := false, chan := c, answer := .fault .transport,
          flog := s.flog ++ [⟨.transport, x.2.1, .read got⟩] }

/-- The decode of a scan's response puts every captured bit at its place and clears the rest (R155, R55). -/
def Obligations.ScanDecodePlacesEveryBit : Prop :=
    ∀ (n : Nat) (resp : List Byte), 1 ≤ n → (n - 1) / 8 + (if (n - 1) % 8 = 0 then 0 else 1) + 1 = resp.length →
      (scanDecode n resp).length = (n + 7) / 8
      ∧ (∀ i < 8 * ((n - 1) / 8), (byteOf (scanDecode n resp) (i / 8)).getLsbD (i % 8)
          = (byteOf resp (i / 8)).getLsbD (i % 8))
      ∧ (∀ i, 8 * ((n - 1) / 8) ≤ i → i < n - 1 → (byteOf (scanDecode n resp) (i / 8)).getLsbD (i % 8)
          = (byteOf resp ((n - 1) / 8)).getLsbD (8 - (n - 1) % 8 + (i - 8 * ((n - 1) / 8))))
      ∧ (byteOf (scanDecode n resp) ((n - 1) / 8)).getLsbD ((n - 1) % 8) = (byteOf resp (resp.length - 1)).getLsbD 7
      ∧ ∀ i, n ≤ i → i < 8 * ((n + 7) / 8) → (byteOf (scanDecode n resp) (i / 8)).getLsbD (i % 8) = false

/-- A scan's preconditions: TapUnknown before SizingViolation before NoPath, nothing changed but FLOG (R152, R298,
R296). The sizing record holds the first sizes that disagree, needed and available: which numbers those are is
the model's choice (log entry 22). -/
def Obligations.ScanPreconditionsInOrder : Prop :=
    ∀ (s : State) (n : Nat) (out : List Byte), s.ch = .opened → s.proto = .jtag →
      (s.tapKnown = false →
        exec (.jtagScanIr n out) s = .next (s.logged .tapUnknown .jtagScanIr .nothing)
        ∧ exec (.jtagScanDr n out) s = .next (s.logged .tapUnknown .jtagScanDr .nothing))
      ∧ (s.tapKnown = true → ∀ need available, TransferMisfits s.par n ((n - 1) / 8) out need available →
        exec (.jtagScanIr n out) s = .next (s.logged .sizing .jtagScanIr (.sizes need available))
        ∧ exec (.jtagScanDr n out) s = .next (s.logged .sizing .jtagScanDr (.sizes need available)))
      ∧ (s.tapKnown = true → 1 ≤ n → out.length = (n + 7) / 8 → (n - 1) / 8 ≤ s.par.maxBlock →
        s.tapCur ∉ Tap.pathSources →
        exec (.jtagScanIr n out) s = .next (s.logged .noPath .jtagScanIr (.path s.tapCur .irShift))
        ∧ exec (.jtagScanDr n out) s = .next (s.logged .noPath .jtagScanDr (.path s.tapCur .drShift)))

/-- A scan on the wire: every bit out and in at its clock, TMS, the pulse count, the target at the end state
(R159, R152, R155, R55, R38). -/
def Obligations.ScanEndToEnd : Prop :=
    ∀ (s : State) (n : Nat) (out : List Byte),
      s.ch = .opened → s.proto = .jtag → s.tapKnown = true → s.tapCur ∈ Tap.pathSources →
      1 ≤ n → out.length = (n + 7) / 8 → (n - 1) / 8 ≤ s.par.maxBlock → s.par.wf = true → s.chan.Quiet →
      s.chan.eng.drivesTap = true → s.chan.target = s.tapCur →
      ∀ x ∈ [(Instr.jtagScanDr n out, Tap.drShift, Tap.drExit1, s.endDr),
          (.jtagScanIr n out, .irShift, .irExit1, s.endIr)],
      stable x.2.2.2 = true → (s.tapCur = x.2.1 → s.chan.eng.tmsLevel = false) →
      s.room (scanCmds s.tapCur x.2.1 x.2.2.1 x.2.2.2 n out).length = true →
      ∃ (t : State) (ps : List Pulse) (ins : List Byte), exec x.1 s = .next t
        ∧ t.answer = .bytes ins ∧ ins.length = (n + 7) / 8
        ∧ t.tapCur = x.2.2.2 ∧ t.chan.target = x.2.2.2 ∧ t.chan.Quiet ∧ t.flog = s.flog ∧ t.tapKnown = true
        ∧ t.chan.wire = s.chan.wire ++ ps.map WireEvt.pulse
        ∧ ps.length = (pathOf s.tapCur x.2.1).length + n + (pathOf x.2.2.1 x.2.2.2).length
        ∧ ∀ i < n, ∃ p, ps[(pathOf s.tapCur x.2.1).length + i]? = some p
            ∧ p.dout = (byteOf out (i / 8)).getLsbD (i % 8) ∧ p.tms = decide (i = n - 1)
            ∧ p.din = some ((byteOf ins (i / 8)).getLsbD (i % 8))

/-- SPI.ASSERT and SPI.CLEAR repeat one pin-set that changes only the select bit (R165, R166, R171, R31). -/
def Obligations.SelectChangesOnlyTheSelectPin : Prop :=
    ∀ s : State, s.ch = .opened → s.proto = .spi → 0 < s.par.spiSettleRepeat → s.chan.accepts = true →
      s.room (3 * s.par.spiSettleRepeat) = true →
      exec .spiAssert s = .next { s.sent (selectCmds s s.spiCsActiveHigh) with
        plVal := selectVal s.plVal s.spiCsActiveHigh, answer := .done }
      ∧ exec .spiClear s = .next { s.sent (selectCmds s !s.spiCsActiveHigh) with
        plVal := selectVal s.plVal !s.spiCsActiveHigh, answer := .done }
      ∧ ∀ (v : Byte) (l : Bool) (i : Nat), (selectVal v l).getLsbD i = if i = 3 then l else v.getLsbD i

/-- SPI.TRANSACT sends select, shifts, deselect and SEND_IMM in one write and decodes the response (R167, R168,
R172, R173). -/
def Obligations.SpiTransactFramesAndDecodes : Prop :=
    ∀ (s : State) (n : Nat) (out resp : List Byte) (c : Chan), s.ch = .opened → s.proto = .spi →
      spiModeSupported s.spiMode = true → 0 < s.par.spiSettleRepeat →
      1 ≤ n → out.length = (n + 7) / 8 → n / 8 ≤ s.par.maxBlock → s.chan.accepts = true →
      s.room (transactCmds s n out).length = true →
      (s.sent (transactCmds s n out)).chan.readExact (n / 8 + if n % 8 = 0 then 0 else 1) = (.ok resp, c) →
      exec (.spiTransact n out) s = .next { s.sent (transactCmds s n out) with
        plVal := selectVal s.plVal !s.spiCsActiveHigh, chan := c, answer := .bytes (spiDecode n resp) }

/-- SPI.WRITE sends its shifts and reads nothing; SPI.READ sends its shifts and decodes the response (R167, R169,
R170, R172). -/
def Obligations.SpiWriteAndReadSendTheirShifts : Prop :=
    ∀ (s : State) (n : Nat), s.ch = .opened → s.proto = .spi → spiModeSupported s.spiMode = true →
      1 ≤ n → n / 8 ≤ s.par.maxBlock → s.chan.accepts = true →
      (∀ out : List Byte, out.length = (n + 7) / 8 → s.room (spiWriteCmds s n out).length = true →
        exec (.spiWrite n out) s = .next ((s.sent (spiWriteCmds s n out)).answering .done))
      ∧ (s.room (spiReadCmds s n).length = true →
        (∀ (resp : List Byte) (c : Chan),
          (s.sent (spiReadCmds s n)).chan.readExact (n / 8 + if n % 8 = 0 then 0 else 1) = (.ok resp, c) →
          exec (.spiRead n) s = .next { s.sent (spiReadCmds s n) with chan := c, answer := .bytes (spiDecode n resp) })
        ∧ (s.par.wf = true → s.chan.Quiet → ∃ resp c,
          (s.sent (spiReadCmds s n)).chan.readExact (n / 8 + if n % 8 = 0 then 0 else 1) = (.ok resp, c)))

/-- With loopback on, SPI.TRANSACT returns the bits it sends, MSB first, the unused bits 0 (R264, R168, R57). -/
def Obligations.SpiLoopbackReturnsTheData : Prop :=
    ∀ (s : State) (n : Nat) (out : List Byte), s.ch = .opened → s.proto = .spi → spiModeSupported s.spiMode = true →
      1 ≤ n → out.length = (n + 7) / 8 → n / 8 ≤ s.par.maxBlock → s.par.wf = true → s.chan.Quiet →
      s.chan.eng.loopback = true → 0 < s.par.spiSettleRepeat → s.room (transactCmds s n out).length = true →
      ∃ t ins, exec (.spiTransact n out) s = .next t ∧ t.answer = .bytes ins ∧ ins.length = (n + 7) / 8
        ∧ t.chan.Quiet ∧ t.flog = s.flog
        ∧ (∀ i < n, (byteOf ins (i / 8)).getLsbD (7 - i % 8) = (byteOf out (i / 8)).getLsbD (7 - i % 8))
        ∧ ∀ i, n ≤ i → i < 8 * ((n + 7) / 8) → (byteOf ins (i / 8)).getLsbD (7 - i % 8) = false

/-- An SPI transfer with sizes that disagree is SizingViolation and changes nothing but FLOG (R168, R170, R59,
R295). The record holds the first sizes that disagree, needed and available: which numbers those are is the
model's choice (log entry 22). -/
def Obligations.SpiSizesAreChecked : Prop :=
    ∀ (s : State) (n : Nat) (out : List Byte), s.ch = .opened → s.proto = .spi →
      (∀ need available, TransferMisfits s.par n (n / 8) out need available →
        exec (.spiTransact n out) s = .next (s.logged .sizing .spiTransact (.sizes need available))
        ∧ exec (.spiWrite n out) s = .next (s.logged .sizing .spiWrite (.sizes need available)))
      ∧ (n = 0 → exec (.spiRead n) s = .next (s.logged .sizing .spiRead (.sizes 1 0)))
      ∧ (s.par.maxBlock < n / 8 →
        exec (.spiRead n) s = .next (s.logged .sizing .spiRead (.sizes (n / 8) s.par.maxBlock)))

/-- START, RSTART and STOP send their phases, each I2C_REPEAT times, in the chip's encoding of release (R181,
R182, R183, R184, R185, R190). -/
def Obligations.I2cConditionsSendTheirPhases : Prop :=
    ∀ s : State,
      (I2cReady s (startCmds s).length → exec .i2cStart s = .next { (s.sent (startCmds s)).afterPhase s false .low with
        answer := .done })
      ∧ (I2cReady s (rstartCmds s).length →
        exec .i2cRstart s = .next { (s.sent (rstartCmds s)).afterPhase s false .low with answer := .done })
      ∧ (I2cReady s (stopCmds s).length →
        exec .i2cStop s = .next { (s.sent (stopCmds s)).afterPhase s true .rel with answer := .done })

/-- I2C.WRITE_BYTE sends its commands, reads one byte and returns whether its bit 0 is 0 (R186, R297). -/
def Obligations.I2cWriteByteReturnsTheAcknowledge : Prop :=
    ∀ (s : State) (v : Byte), I2cReady s (writeByteCmds s v).length →
      (∀ (r : Byte) (c : Chan), (s.sent (writeByteCmds s v)).chan.readExact 1 = (.ok [r], c) →
      exec (.i2cWriteByte v) s = .next { (s.sent (writeByteCmds s v)).afterPhase s false .rel with
        chan := c, answer := .acked (r.getLsbD 0 == false) })
      ∧ (s.chan.Quiet → ∃ r c, (s.sent (writeByteCmds s v)).chan.readExact 1 = (.ok [r], c))

/-- I2C.READ_BYTE sends its commands with the requested acknowledge and returns the byte read (R187, R56). -/
def Obligations.I2cReadByteReturnsTheByte : Prop :=
    ∀ (s : State) (ack : Bool), I2cReady s (readByteCmds s ack).length →
      (∀ (r : Byte) (c : Chan), (s.sent (readByteCmds s ack)).chan.readExact 1 = (.ok [r], c) →
      exec (.i2cReadByte ack) s = .next { (s.sent (readByteCmds s ack)).afterPhase s false .rel with
        chan := c, answer := .byte r })
      ∧ (s.chan.Quiet → ∃ r c, (s.sent (readByteCmds s ack)).chan.readExact 1 = (.ok [r], c))

/-- I2C.XWRITE sends START, the address, the data up to the first NAK and STOP, and returns None or the
acknowledged count (R189, R186, R297). Under I2C on a quiet channel without loopback, the data-in pin an
input, with room for each step: given the levels the slave puts on the line at the acknowledge clocks (the
list din, log entry 13), I2C.XWRITE completes without a fault. -/
def Obligations.I2cXwriteCountsAcknowledges : Prop :=
    ∀ (s : State) (addr : Byte) (data : List Byte) (a : Bool) (acks : List Bool),
      s.ch = .opened → s.proto = .i2c → addr.toNat ≤ 0x7F → s.qcur = 0 → 13 ≤ s.par.qcap →
      0 < s.par.i2cRepeat → 9 * s.par.i2cRepeat ≤ s.par.qcap → s.chan.Quiet → s.chan.eng.loopback = false →
      s.plDir.getLsbD dataInBit = false → s.chan.din = a :: acks → data.length ≤ acks.length →
      ∃ t, exec (.i2cXwrite addr data) s = .next t ∧ t.flog = s.flog ∧ t.qcur = 0
        ∧ t.answer = .optNat (if a then none else some (leadingAcks data acks))
        ∧ t.chan.calls = s.chan.calls ++ helperHead s addr false
            ++ (if a then [] else (data.take (leadingAcks data acks + 1)).flatMap (writeByteCalls s))
            ++ [.write (stopCmds s)]
        ∧ t = { s with qbuf := t.qbuf, chan := t.chan, plVal := t.plVal, plDir := t.plDir, answer := t.answer }

/-- I2C.XREAD sends START, the address, its reads (NAK on the last only) and STOP, and returns None or the slave's
bits (R188, R187, R56). Under I2C on a quiet channel without loopback, the data-in pin an input, with room for
each step: given the levels the slave puts on the line (the list din, log entry 13), I2C.XREAD completes
without a fault. -/
def Obligations.I2cXreadReturnsTheSlavesBits : Prop :=
    ∀ (s : State) (addr : Byte) (count : Nat) (a : Bool) (bits : List Bool),
      s.ch = .opened → s.proto = .i2c → addr.toNat ≤ 0x7F → s.qcur = 0 → 16 ≤ s.par.qcap →
      0 < s.par.i2cRepeat → 9 * s.par.i2cRepeat ≤ s.par.qcap → s.chan.Quiet → s.chan.eng.loopback = false →
      s.plDir.getLsbD dataInBit = false → s.chan.din = a :: bits → 8 * count ≤ bits.length →
      ∃ t, exec (.i2cXread addr count) s = .next t ∧ t.flog = s.flog ∧ t.qcur = 0
        ∧ (a = true → t.answer = .optBytes none)
        ∧ (a = false → ∃ bs, t.answer = .optBytes (some bs) ∧ bs.length = count
            ∧ ∀ j < count, ∀ b < 8, (byteOf bs j).getLsbD (7 - b) = bits.getD (8 * j + b) false)
        ∧ t.chan.calls = s.chan.calls ++ helperHead s addr true
            ++ (if a then [] else (List.range count).flatMap fun j => readByteCalls s (decide (j + 1 < count)))
            ++ [.write (stopCmds s)]
        ∧ t = { s with qbuf := t.qbuf, chan := t.chan, plVal := t.plVal, plDir := t.plDir, answer := t.answer }

/-- An I2C helper refuses an address above 0x7F and, at a transport fault in START, address or data, ends without
a STOP (R188, R189, R300). Under I2C: an address above 0x7F is SizingViolation for both helpers with nothing
changed but FLOG and the answer; that the record holds the address as the needed and 0x7F as the available
size is the model's choice (log entry 22). With room for each step, each helper ends at the step that fails
with TransportFault recorded, Q.cur 0, no value returned and no STOP: at START's write, at the address byte's
write, at the read of its acknowledge; and, on a channel with nothing under way whose slave acknowledges the
address (the list din, log entry 13), at the write of the first data byte of I2C.XWRITE and of the first byte
read of I2C.XREAD. -/
def Obligations.I2cHelpersStopAtAFault : Prop :=
    ∀ (s : State) (addr : Byte), s.ch = .opened → s.proto = .i2c →
      (0x7F < addr.toNat → ∀ count data,
        exec (.i2cXread addr count) s = .next (s.logged .sizing .i2cXread (.sizes addr.toNat 0x7F))
        ∧ exec (.i2cXwrite addr data) s = .next (s.logged .sizing .i2cXwrite (.sizes addr.toNat 0x7F)))
      ∧ (addr.toNat ≤ 0x7F → s.qcur = 0 → 16 ≤ s.par.qcap → 0 < s.par.i2cRepeat → 9 * s.par.i2cRepeat ≤ s.par.qcap →
        ∀ (g h j k : Nat) (ts : List Turn),
        (∀ count data, ∀ x ∈ [(Instr.i2cXread addr count, HostOp.i2cXread, true),
            (.i2cXwrite addr data, .i2cXwrite, false)],
          (s.chan.turns = .fails k :: ts → s.Abandons x.1 x.2.1 .write [.write (startCmds s)])
          ∧ (s.chan.turns = .answers g :: .fails k :: ts →
            s.Abandons x.1 x.2.1 .write
              [.write (startCmds s), .write (writeByteCmds s (helperAddress addr x.2.2))])
          ∧ (s.chan.turns = .answers g :: .answers h :: .fails k :: ts →
            s.Abandons x.1 x.2.1 (.read 0) (helperHead s addr x.2.2)))
        ∧ ∀ bits, s.chan.turns = .answers g :: .answers h :: .answers (j + 1) :: .fails k :: ts →
          s.chan.tx = [] → s.chan.incoming = [] → s.chan.eng.loopback = false →
          s.plDir.getLsbD dataInBit = false → s.chan.din = false :: bits →
          (∀ b data, s.Abandons (.i2cXwrite addr (b :: data)) .i2cXwrite .write
            (helperHead s addr false ++ [.write (writeByteCmds s b)]))
          ∧ ∀ count, s.Abandons (.i2cXread addr (count + 1)) .i2cXread .write
            (helperHead s addr true ++ [.write (readByteCmds s (decide (0 < count)))]))

/-- MPSSE.SYNC on a quiet channel sends the baseline and AA, reads FA AA and leaves the streams empty (R205, R94,
R37). -/
def Obligations.SyncPassesOnTheEcho : Prop :=
    ∀ s : State, s.ch = .opened → s.chan.Quiet → s.cap = s.chan.sup → s.room 3 = true →
      ∃ t, exec .mpsseSync s = .next t
        ∧ t = { s with qbuf := t.qbuf, chan := t.chan, answer := .done }
        ∧ t.chan.calls = s.chan.calls ++ syncCalls s.cap.enh ∧ t.chan.Quiet
        ∧ (s.cap.enh = true →
            t.chan.eng = { s.chan.eng with div5 := false, adaptive := false, threePhase := false })
        ∧ (s.cap.enh = false → t.chan.eng = s.chan.eng)

/-- The handshake's failures: stale bytes make the channel DEAD, the poll's bound is TransportFault, without a
bound it holds (R205, R292, R296, R331, X13). No bound, and an engine that is still waiting for the data of a
longer command, so that AA is no opcode to it and no byte ever comes: the poll holds for good, which is the
model's one fault (log entry 24). -/
def Obligations.HandshakeFailures : Prop :=
    ∀ s : State, s.ch = .opened → s.room 3 = true →
      (∀ resp : List Byte, s.cap = s.chan.sup → s.chan.turns = [] → s.chan.tx = [] → s.chan.incoming ≠ [] →
        resp = (s.chan.incoming ++ [s.chan.marker, 0xAA]).take 2 → resp ≠ [s.chan.marker, 0xAA] →
        ∃ t, exec .mpsseSync s = .next t
          ∧ t = { s with
              ch := .dead, qbuf := t.qbuf, chan := t.chan, answer := .fault .synchronization,
              flog := s.flog ++ [⟨.synchronization, .mpsseSync, .got resp⟩] }
          ∧ t.chan.incoming = (s.chan.incoming ++ [s.chan.marker, 0xAA]).drop 2)
      ∧ (∀ (limit : Nat) (ts : List Turn), s.par.syncPollLimit = some limit → s.chan.rx = [] →
        s.chan.turns =
          List.replicate ((if s.cap.enh then 2 else 1) + max 1 limit) (.answers 0) ++ ts →
        ∃ t, exec .mpsseSync s = .next t
          ∧ t = { s with
              qbuf := t.qbuf, chan := t.chan, answer := .fault .transport,
              tapKnown := s.tapKnown && !decide (s.proto = .jtag),
              flog := s.flog ++ [⟨.transport, .mpsseSync, .syncPollTimeout⟩] }
          ∧ t.chan.calls = s.chan.calls ++ (if s.cap.enh then [.write [0x8A, 0x97, 0x8D]] else [])
              ++ [.write [0xAA]] ++ List.replicate (max 1 limit) .count)
      ∧ ∀ r : List Byte, s.par.syncPollLimit = none → s.chan.turns = [] → s.chan.incoming = [] →
        s.chan.tx = 0x10 :: 0xFF :: 0xFF :: r → r.length + 4 < 65536 → exec .mpsseSync s = .fault .handshakeHold

/-- JTAG.OPEN from a closed quiet channel: the calls it makes and the state it leaves (R206, R207, R211, R150). -/
def Obligations.JtagOpenBringsUpTheTap : Prop :=
    ∀ (s : State) (hz : Hertz), OpenReady s → 5 ≤ s.par.resetPulses →
      (tmsSeq (List.replicate s.par.resetPulses true)).length ≤ s.par.qcap →
      ∃ t, exec (.jtagOpen hz) s = .next t
        ∧ t = { s with
            ch := .opened, proto := .jtag, cap := s.chan.sup, qbuf := t.qbuf, qcur := 0, tapCur := .reset,
            tapKnown := true, endIr := .idle, endDr := .idle, plVal := 0x08, plDir := 0x0B, chan := t.chan,
            answer := .divisor (BitVec.ofNat 16 (clkDivisorFor s.par s.chan.sup.enh hz.toNat)) }
        ∧ t.chan.calls = s.chan.calls ++ setupCalls s.par ++ syncCalls s.chan.sup.enh
            ++ [.write (clockCmds s.par s.chan.sup.enh hz.toNat), .write [0x85, 0x80, 0x08, 0x0B],
                .write (tmsSeq (List.replicate s.par.resetPulses true))]
        ∧ t.chan.settle.eng.loopback = false
        ∧ t.chan.settle.eng.divisor = BitVec.ofNat 16 (clkDivisorFor s.par s.chan.sup.enh hz.toNat)
        ∧ (s.chan.eng.odLow.getLsbD clockBit = false → s.chan.eng.odLow.getLsbD selectBit = false →
            t.chan.settle.target = .reset)

/-- SPI.OPEN from a closed quiet channel: the calls it makes and the state it leaves (R206, R208, R211, R31). -/
def Obligations.SpiOpenSetsThePinsIdle : Prop :=
    ∀ (s : State) (hz : Hertz) (v : Byte), OpenReady s → spiModeSupported s.spiMode = true →
      v = (if s.spiMode = .m2 then 0x01 else 0x00) + (if s.spiCsActiveHigh then 0x00 else 0x08) →
      ∃ t, exec (.spiOpen hz) s = .next t
        ∧ t = { s with
            ch := .opened, proto := .spi, cap := s.chan.sup, qbuf := t.qbuf, qcur := 0, tapKnown := false,
            plVal := v, plDir := 0x0B, chan := t.chan,
            answer := .divisor (BitVec.ofNat 16 (clkDivisorFor s.par s.chan.sup.enh hz.toNat)) }
        ∧ t.chan.calls = s.chan.calls ++ setupCalls s.par ++ syncCalls s.chan.sup.enh
            ++ [.write (clockCmds s.par s.chan.sup.enh hz.toNat), .write [0x85, 0x80, v, 0x0B]]
        ∧ t.chan.settle.eng.loopback = false ∧ t.chan.settle.eng.lowVal = v ∧ t.chan.settle.eng.lowDir = 0x0B

/-- I2C.OPEN from a closed quiet channel: 3-phase compensation, open-drain set-up, bus idle (R206, R209, R191,
R125). On a closed quiet channel with an MPSSE chip, 3-phase clocking only on an enhanced one, I2C.OPEN
completes: capability queries, setup calls, handshake, PH3_ON when 3-phase is requested together with the
clock of the compensated request ((3*hz) div 2 with the default factor, log entry 39), else the clock of hz,
then LOOP_OFF, OD_CFG 03 00 on an open-drain chip, and the idle phase I2C_REPEAT times; CH OPEN, PROTO I2C,
capabilities latched, shadows at the idle phase, the divisor returned. -/
def Obligations.I2cOpenLeavesTheBusIdle : Prop :=
    ∀ (s : State) (hz : Hertz) (f : Nat) (p : Byte), OpenReady s → (s.i2cThreePhase = true → s.chan.sup.enh = true) →
      0 < s.par.i2cRepeat → 4 + 3 * s.par.i2cRepeat ≤ s.par.qcap →
      f = (if s.i2cThreePhase then s.par.threePhaseNum * hz.toNat / s.par.threePhaseDen else hz.toNat) →
      p = (if s.chan.sup.od then 0x03 else 0x01) →
      ∃ t, exec (.i2cOpen hz) s = .next t
        ∧ t = { s with
            ch := .opened, proto := .i2c, cap := s.chan.sup, qbuf := t.qbuf, qcur := 0, tapKnown := false,
            plVal := p, plDir := p, chan := t.chan,
            answer := .divisor (BitVec.ofNat 16 (clkDivisorFor s.par s.chan.sup.enh f)) }
        ∧ t.chan.calls = s.chan.calls ++ setupCalls s.par ++ syncCalls s.chan.sup.enh
            ++ [.write ((if s.i2cThreePhase then [0x8C] else []) ++ clockCmds s.par s.chan.sup.enh f),
                .write ([0x85] ++ (if s.chan.sup.od then [0x9E, 0x03, 0x00] else [])
                  ++ (List.replicate s.par.i2cRepeat [0x80, p, p]).flatten)]
        ∧ (s.chan.sup.enh = true → t.chan.settle.eng.threePhase = s.i2cThreePhase)

/-- An open that faults after its checks leaves DEAD and NONE; one its checks refuse, or whose query fails, stays
CLOSED (R210, R211, R60, R296, R21). When a query fails: TransportFault naming it, the later queries not made,
Q.cur 0, CH still CLOSED and the latched capabilities as they were (log entry 20). -/
def Obligations.FailedOpenLeavesDead : Prop :=
    ∀ (s : State) (hz : Hertz), s.ch = .closed →
      (s.chan.answersQueries = true →
        (s.chan.sup.mpsse = false →
          ∀ p ∈ [(Instr.jtagOpen hz, HostOp.jtagOpen), (.spiOpen hz, .spiOpen), (.i2cOpen hz, .i2cOpen)],
            s.RefusesOpen p.1 p.2 .noMpsse)
        ∧ (s.chan.sup.mpsse = true → spiModeSupported s.spiMode = false →
          s.RefusesOpen (.spiOpen hz) .spiOpen .unsupportedSpiMode)
        ∧ (s.chan.sup.mpsse = true → s.i2cThreePhase = true → s.chan.sup.enh = false →
          s.RefusesOpen (.i2cOpen hz) .i2cOpen .threePhaseNeedsEnhanced))
      ∧ (∀ (gs : List Nat) (k : Nat) (ts : List Turn), gs.length < 3 →
        s.chan.turns = gs.map .answers ++ .fails k :: ts →
        ∀ p ∈ [(Instr.jtagOpen hz, HostOp.jtagOpen), (.spiOpen hz, .spiOpen), (.i2cOpen hz, .i2cOpen)],
          ∃ t, exec p.1 s = .next t
            ∧ t = { s with
                qcur := 0, chan := t.chan, answer := .fault .transport,
                tapKnown := s.tapKnown && !decide (s.proto = .jtag),
                flog := s.flog ++ [⟨.transport, p.2,
                  [Detail.supportsMpsse, .supportsEnhanced, .supportsOpenDrain].getD gs.length .nothing⟩] }
            ∧ t.chan.calls = s.chan.calls ++ queryCalls.take (gs.length + 1))
      ∧ (s.chan.answersQueries = true → s.chan.sup.mpsse = true → spiModeSupported s.spiMode = true →
        (s.i2cThreePhase = true → s.chan.sup.enh = true) →
        ∀ i ∈ [Instr.jtagOpen hz, .spiOpen hz, .i2cOpen hz],
          (∀ t c, exec i s = .next t → t.answer = .fault c →
            t.ch = .dead ∧ t.proto = .none ∧ t.qcur = 0 ∧ (s.tapKnown = false → t.tapKnown = false)
              ∧ t.flog.length = s.flog.length + 1)
          ∧ ∀ a b c k ts, s.chan.tx = [] →
            s.chan.turns = .answers a :: .answers b :: .answers c :: .fails k :: ts →
            ∃ t, exec i s = .next t ∧ t.answer = .fault .transport ∧ t.ch = .dead
              ∧ t.chan.calls = s.chan.calls ++ queryCalls ++ [.setBitMode 0 .reset])

/-- CLOSE leaves CLOSED, NONE, an empty queue and the target's TAP where it was, also when its call fails (R212,
R22). That a failed call leaves the engine and its pins as they were is the model's choice (log entry 19). -/
def Obligations.CloseAlwaysCloses : Prop :=
    ∀ s : State, s.ch ≠ .closed → s.chan.tx = [] →
      (s.chan.accepts = true → ∃ t, exec .close s = .next t
        ∧ t = { s with ch := .closed, proto := .none, tapKnown := false, qcur := 0, chan := t.chan, answer := .done }
        ∧ t.chan.calls = s.chan.calls ++ [.setBitMode 0 .reset] ∧ t.chan.bitMode = .reset
        ∧ t.chan.target = s.chan.target ∧ t.chan.fresh = s.chan.fresh
        ∧ t.chan.eng.lowDir = 0 ∧ t.chan.eng.highDir = 0)
      ∧ (s.chan.accepts = false → ∃ t, exec .close s = .next t
        ∧ t = { s with
            ch := .closed, proto := .none, tapKnown := false, qcur := 0, chan := t.chan,
            answer := .fault .transport, flog := s.flog ++ [⟨.transport, .close, .close⟩] }
        ∧ t.chan.calls = s.chan.calls ++ [.setBitMode 0 .reset]
        ∧ t.chan.target = s.chan.target ∧ t.chan.eng = s.chan.eng)

/-- MPSSE.EMIT appends exactly the command's bytes and moves the shadows only for SET_LOW (R276, R220, R29). With
the channel open, a command of the set whose capability the chip has and whose operands are in range, and room
for it: MPSSE.EMIT completes, its bytes stored at the cursor (that the unused bits of a data byte go in as the
host gave them is the model's choice, log entry 43), the shadows taking SET_LOW's operands and no other
command's, nothing flushed and nothing else changed. Without room it is SizingViolation, nothing is stored,
and the cursor becomes 0 (log entry 34). -/
def Obligations.EmitAppendsOneCommand : Prop :=
    ∀ (s : State) (cmd : MCmd) (i : Instr), s.ch = .opened → cmd.instr = some i → cmdMisfit s.par cmd = none →
      s.cap.opens (cmdGate cmd) = true →
      (s.qcur + (encodeCmd i).length ≤ s.par.qcap → ∃ t, exec (.mpsseEmit cmd) s = .next t
        ∧ t = { s with
            qbuf := s.qbuf.writeList s.qcur (encodeCmd i), qcur := s.qcur + (encodeCmd i).length,
            plVal := t.plVal, plDir := t.plDir, answer := .done }
        ∧ (∀ v d, i = .setLow v d → t.plVal = v ∧ t.plDir = d)
        ∧ ((∀ v d, i ≠ .setLow v d) → t.plVal = s.plVal ∧ t.plDir = s.plDir))
      ∧ (s.par.qcap < s.qcur + (encodeCmd i).length →
        exec (.mpsseEmit cmd) s = .next { s.logged .sizing .mpsseEmit
          (.queueOverflow (encodeCmd i).length (s.par.qcap - s.qcur)) with qcur := 0 })

/-- MPSSE.EMIT refuses unknown, gated and out-of-range commands before appending anything (R276, R97, R294, R295).
The sizing record holds a needed and an available size: which numbers those are is the model's choice (log
entry 22). -/
def Obligations.EmitRefusesInOrder : Prop :=
    ∀ s : State, s.ch = .opened →
      (∀ op, exec (.mpsseEmit (.unknown op)) s = .next (s.logged .configuration .mpsseEmit (.reason .unknownCommand)))
      ∧ (s.cap.enh = false → ∀ o ∈ [NoargOp.div5Off, .div5On, .ph3On, .ph3Off, .adaptOn, .adaptOff],
        exec (.mpsseEmit (.noarg o)) s = .next (s.logged .configuration .mpsseEmit (.reason .needsEnhanced)))
      ∧ (s.cap.od = false → ∀ l h,
        exec (.mpsseEmit (.odCfg l h)) s = .next (s.logged .configuration .mpsseEmit (.reason .needsOpenDrain)))
      ∧ (∀ need available,
        (∀ n, CountMisfits n s.par.maxBlock need available →
          (∀ o d, exec (.mpsseEmit (.bytesW o n d)) s = .next (s.logged .sizing .mpsseEmit (.operand need available)))
          ∧ ∀ o, exec (.mpsseEmit (.bytesR o n)) s = .next (s.logged .sizing .mpsseEmit (.operand need available)))
        ∧ (∀ k, CountMisfits k 8 need available →
          (∀ o d, exec (.mpsseEmit (.bitsW o k d)) s = .next (s.logged .sizing .mpsseEmit (.operand need available)))
          ∧ ∀ o, exec (.mpsseEmit (.bitsR o k)) s = .next (s.logged .sizing .mpsseEmit (.operand need available)))
        ∧ ∀ o m d, CountMisfits m 7 need available →
          exec (.mpsseEmit (.tms o m d)) s = .next (s.logged .sizing .mpsseEmit (.operand need available)))
      ∧ (∀ o n d, 1 ≤ n → n ≤ s.par.maxBlock → d.length ≠ n →
        exec (.mpsseEmit (.bytesW o n d)) s = .next (s.logged .sizing .mpsseEmit (.operand n d.length)))
      ∧ ∀ d, s.par.divMax < d →
        exec (.mpsseEmit (.setDiv d)) s = .next (s.logged .sizing .mpsseEmit (.operand d s.par.divMax))

/-- Every host operation first checks CH and PROTO as the table says, and a refusal changes only FLOG and the
answer (R293). -/
def Obligations.ChannelStateCheck : Prop :=
    ∀ (i : Instr) (op : HostOp) (s : State) (r : CfgReason), hostOp i = some op → (needOf op).refuses s = some r →
      exec i s = .next (s.logged .configuration op (.reason r))

/-- A flushing host operation that completes leaves the queue empty (R40, R112, D12). -/
def Obligations.FlushingOperationsEmptyTheQueue : Prop :=
    ∀ (i : Instr) (op : HostOp) (s t : State), hostOp i = some op → flushes op = true →
      exec i s = .next t → t.flog = s.flog → t.qcur = 0

/-- FLOG only grows, by one record a step at most; parameters, SPI and I2C configuration and the chip's
capabilities never change (R33, R296, R9, R30, R31, R32). No step changes the numeric parameters (log entry 5)
or the bad-command marker (log entry 39), the SPI mode and select polarity, the 3-phase request, or the
capabilities the chip answers to the queries. -/
def Obligations.FaultLogOnlyGrows : Prop :=
    State.reset.flog = []
    ∧ ∀ s t : State, step s = .next t →
      (t.flog = s.flog ∨ ∃ f, t.flog = s.flog ++ [f]) ∧ t.par = s.par ∧ t.spiMode = s.spiMode
        ∧ t.spiCsActiveHigh = s.spiCsActiveHigh ∧ t.i2cThreePhase = s.i2cThreePhase ∧ t.chan.sup = s.chan.sup
        ∧ t.chan.marker = s.chan.marker

/-- The values the spec states for reset, and the invariant holds there (R39, R320). What R39 does not state
(inputs, engine, RX, target) is the model's choice and not stated here (log entries 5 to 8). -/
def Obligations.ResetValues : Prop :=
    State.reset.ch = .closed ∧ State.reset.proto = .none ∧ State.reset.qcur = 0
    ∧ (∀ a, State.reset.qbuf.read a = none) ∧ State.reset.tapCur = .reset ∧ State.reset.tapKnown = false
    ∧ State.reset.endIr = .idle ∧ State.reset.endDr = .idle ∧ State.reset.plVal = 0 ∧ State.reset.plDir = 0
    ∧ State.reset.flog = [] ∧ Inv State.reset

/-- Every step keeps the invariant (R24, R28, R40, R211, R296). -/
def Obligations.StepKeepsTheInvariant : Prop :=
    ∀ s t : State, Inv s → step s = .next t → Inv t
end

