-- ==== Sys2Proof/Laws/State.lean ====
section
/-! SUPPORT. One lemma for each field under each named update of the state and of the channel. -/

namespace Sys2Proof.Machine

@[simp] theorem State.append_ch (s : State) (bs : List Byte) : (s.append bs).ch = s.ch := rfl
@[simp] theorem State.append_proto (s : State) (bs : List Byte) : (s.append bs).proto = s.proto := rfl
@[simp] theorem State.append_qbuf (s : State) (bs : List Byte) : (s.append bs).qbuf = s.qbuf.writeList s.qcur bs := rfl
@[simp] theorem State.append_qcur (s : State) (bs : List Byte) : (s.append bs).qcur = s.qcur + bs.length := rfl
@[simp] theorem State.append_tapCur (s : State) (bs : List Byte) : (s.append bs).tapCur = s.tapCur := rfl
@[simp] theorem State.append_tapKnown (s : State) (bs : List Byte) : (s.append bs).tapKnown = s.tapKnown := rfl
@[simp] theorem State.append_endIr (s : State) (bs : List Byte) : (s.append bs).endIr = s.endIr := rfl
@[simp] theorem State.append_endDr (s : State) (bs : List Byte) : (s.append bs).endDr = s.endDr := rfl
@[simp] theorem State.append_plVal (s : State) (bs : List Byte) : (s.append bs).plVal = s.plVal := rfl
@[simp] theorem State.append_plDir (s : State) (bs : List Byte) : (s.append bs).plDir = s.plDir := rfl
@[simp] theorem State.append_cap (s : State) (bs : List Byte) : (s.append bs).cap = s.cap := rfl
@[simp] theorem State.append_spiCsActiveHigh (s : State) (bs : List Byte) : (s.append bs).spiCsActiveHigh = s.spiCsActiveHigh := rfl
@[simp] theorem State.append_spiMode (s : State) (bs : List Byte) : (s.append bs).spiMode = s.spiMode := rfl
@[simp] theorem State.append_i2cThreePhase (s : State) (bs : List Byte) : (s.append bs).i2cThreePhase = s.i2cThreePhase := rfl
@[simp] theorem State.append_flog (s : State) (bs : List Byte) : (s.append bs).flog = s.flog := rfl
@[simp] theorem State.append_par (s : State) (bs : List Byte) : (s.append bs).par = s.par := rfl
@[simp] theorem State.append_answer (s : State) (bs : List Byte) : (s.append bs).answer = s.answer := rfl
@[simp] theorem State.append_port (s : State) (bs : List Byte) : (s.append bs).port = s.port := rfl
@[simp] theorem State.append_chan (s : State) (bs : List Byte) : (s.append bs).chan = s.chan := rfl

@[simp] theorem State.withChan_ch (s : State) (c : Chan) : (s.withChan c).ch = s.ch := rfl
@[simp] theorem State.withChan_proto (s : State) (c : Chan) : (s.withChan c).proto = s.proto := rfl
@[simp] theorem State.withChan_qbuf (s : State) (c : Chan) : (s.withChan c).qbuf = s.qbuf := rfl
@[simp] theorem State.withChan_qcur (s : State) (c : Chan) : (s.withChan c).qcur = s.qcur := rfl
@[simp] theorem State.withChan_tapCur (s : State) (c : Chan) : (s.withChan c).tapCur = s.tapCur := rfl
@[simp] theorem State.withChan_tapKnown (s : State) (c : Chan) : (s.withChan c).tapKnown = s.tapKnown := rfl
@[simp] theorem State.withChan_endIr (s : State) (c : Chan) : (s.withChan c).endIr = s.endIr := rfl
@[simp] theorem State.withChan_endDr (s : State) (c : Chan) : (s.withChan c).endDr = s.endDr := rfl
@[simp] theorem State.withChan_plVal (s : State) (c : Chan) : (s.withChan c).plVal = s.plVal := rfl
@[simp] theorem State.withChan_plDir (s : State) (c : Chan) : (s.withChan c).plDir = s.plDir := rfl
@[simp] theorem State.withChan_cap (s : State) (c : Chan) : (s.withChan c).cap = s.cap := rfl
@[simp] theorem State.withChan_spiCsActiveHigh (s : State) (c : Chan) : (s.withChan c).spiCsActiveHigh = s.spiCsActiveHigh := rfl
@[simp] theorem State.withChan_spiMode (s : State) (c : Chan) : (s.withChan c).spiMode = s.spiMode := rfl
@[simp] theorem State.withChan_i2cThreePhase (s : State) (c : Chan) : (s.withChan c).i2cThreePhase = s.i2cThreePhase := rfl
@[simp] theorem State.withChan_flog (s : State) (c : Chan) : (s.withChan c).flog = s.flog := rfl
@[simp] theorem State.withChan_par (s : State) (c : Chan) : (s.withChan c).par = s.par := rfl
@[simp] theorem State.withChan_answer (s : State) (c : Chan) : (s.withChan c).answer = s.answer := rfl
@[simp] theorem State.withChan_port (s : State) (c : Chan) : (s.withChan c).port = s.port := rfl
@[simp] theorem State.withChan_chan (s : State) (c : Chan) : (s.withChan c).chan = c := rfl

@[simp] theorem State.latchCaps_ch (s : State) : (s.latchCaps).ch = s.ch := rfl
@[simp] theorem State.latchCaps_proto (s : State) : (s.latchCaps).proto = s.proto := rfl
@[simp] theorem State.latchCaps_qbuf (s : State) : (s.latchCaps).qbuf = s.qbuf := rfl
@[simp] theorem State.latchCaps_qcur (s : State) : (s.latchCaps).qcur = s.qcur := rfl
@[simp] theorem State.latchCaps_tapCur (s : State) : (s.latchCaps).tapCur = s.tapCur := rfl
@[simp] theorem State.latchCaps_tapKnown (s : State) : (s.latchCaps).tapKnown = s.tapKnown := rfl
@[simp] theorem State.latchCaps_endIr (s : State) : (s.latchCaps).endIr = s.endIr := rfl
@[simp] theorem State.latchCaps_endDr (s : State) : (s.latchCaps).endDr = s.endDr := rfl
@[simp] theorem State.latchCaps_plVal (s : State) : (s.latchCaps).plVal = s.plVal := rfl
@[simp] theorem State.latchCaps_plDir (s : State) : (s.latchCaps).plDir = s.plDir := rfl
@[simp] theorem State.latchCaps_cap (s : State) : (s.latchCaps).cap = s.chan.sup := rfl
@[simp] theorem State.latchCaps_spiCsActiveHigh (s : State) : (s.latchCaps).spiCsActiveHigh = s.spiCsActiveHigh := rfl
@[simp] theorem State.latchCaps_spiMode (s : State) : (s.latchCaps).spiMode = s.spiMode := rfl
@[simp] theorem State.latchCaps_i2cThreePhase (s : State) : (s.latchCaps).i2cThreePhase = s.i2cThreePhase := rfl
@[simp] theorem State.latchCaps_flog (s : State) : (s.latchCaps).flog = s.flog := rfl
@[simp] theorem State.latchCaps_par (s : State) : (s.latchCaps).par = s.par := rfl
@[simp] theorem State.latchCaps_answer (s : State) : (s.latchCaps).answer = s.answer := rfl
@[simp] theorem State.latchCaps_port (s : State) : (s.latchCaps).port = s.port := rfl
@[simp] theorem State.latchCaps_chan (s : State) : (s.latchCaps).chan = s.chan := rfl

@[simp] theorem State.sent_ch (s : State) (bs : List Byte) : (s.sent bs).ch = s.ch := rfl
@[simp] theorem State.sent_proto (s : State) (bs : List Byte) : (s.sent bs).proto = s.proto := rfl
@[simp] theorem State.sent_qbuf (s : State) (bs : List Byte) : (s.sent bs).qbuf = s.qbuf.writeList 0 bs := rfl
@[simp] theorem State.sent_qcur (s : State) (bs : List Byte) : (s.sent bs).qcur = 0 := rfl
@[simp] theorem State.sent_tapCur (s : State) (bs : List Byte) : (s.sent bs).tapCur = s.tapCur := rfl
@[simp] theorem State.sent_tapKnown (s : State) (bs : List Byte) : (s.sent bs).tapKnown = s.tapKnown := rfl
@[simp] theorem State.sent_endIr (s : State) (bs : List Byte) : (s.sent bs).endIr = s.endIr := rfl
@[simp] theorem State.sent_endDr (s : State) (bs : List Byte) : (s.sent bs).endDr = s.endDr := rfl
@[simp] theorem State.sent_plVal (s : State) (bs : List Byte) : (s.sent bs).plVal = s.plVal := rfl
@[simp] theorem State.sent_plDir (s : State) (bs : List Byte) : (s.sent bs).plDir = s.plDir := rfl
@[simp] theorem State.sent_cap (s : State) (bs : List Byte) : (s.sent bs).cap = s.cap := rfl
@[simp] theorem State.sent_spiCsActiveHigh (s : State) (bs : List Byte) : (s.sent bs).spiCsActiveHigh = s.spiCsActiveHigh := rfl
@[simp] theorem State.sent_spiMode (s : State) (bs : List Byte) : (s.sent bs).spiMode = s.spiMode := rfl
@[simp] theorem State.sent_i2cThreePhase (s : State) (bs : List Byte) : (s.sent bs).i2cThreePhase = s.i2cThreePhase := rfl
@[simp] theorem State.sent_flog (s : State) (bs : List Byte) : (s.sent bs).flog = s.flog := rfl
@[simp] theorem State.sent_par (s : State) (bs : List Byte) : (s.sent bs).par = s.par := rfl
@[simp] theorem State.sent_answer (s : State) (bs : List Byte) : (s.sent bs).answer = s.answer := rfl
@[simp] theorem State.sent_port (s : State) (bs : List Byte) : (s.sent bs).port = s.port := rfl
@[simp] theorem State.sent_chan (s : State) (bs : List Byte) : (s.sent bs).chan = (s.chan.write bs).2 := rfl

@[simp] theorem State.answering_ch (s : State) (a : Answer) : (s.answering a).ch = s.ch := rfl
@[simp] theorem State.answering_proto (s : State) (a : Answer) : (s.answering a).proto = s.proto := rfl
@[simp] theorem State.answering_qbuf (s : State) (a : Answer) : (s.answering a).qbuf = s.qbuf := rfl
@[simp] theorem State.answering_qcur (s : State) (a : Answer) : (s.answering a).qcur = s.qcur := rfl
@[simp] theorem State.answering_tapCur (s : State) (a : Answer) : (s.answering a).tapCur = s.tapCur := rfl
@[simp] theorem State.answering_tapKnown (s : State) (a : Answer) : (s.answering a).tapKnown = s.tapKnown := rfl
@[simp] theorem State.answering_endIr (s : State) (a : Answer) : (s.answering a).endIr = s.endIr := rfl
@[simp] theorem State.answering_endDr (s : State) (a : Answer) : (s.answering a).endDr = s.endDr := rfl
@[simp] theorem State.answering_plVal (s : State) (a : Answer) : (s.answering a).plVal = s.plVal := rfl
@[simp] theorem State.answering_plDir (s : State) (a : Answer) : (s.answering a).plDir = s.plDir := rfl
@[simp] theorem State.answering_cap (s : State) (a : Answer) : (s.answering a).cap = s.cap := rfl
@[simp] theorem State.answering_spiCsActiveHigh (s : State) (a : Answer) : (s.answering a).spiCsActiveHigh = s.spiCsActiveHigh := rfl
@[simp] theorem State.answering_spiMode (s : State) (a : Answer) : (s.answering a).spiMode = s.spiMode := rfl
@[simp] theorem State.answering_i2cThreePhase (s : State) (a : Answer) : (s.answering a).i2cThreePhase = s.i2cThreePhase := rfl
@[simp] theorem State.answering_flog (s : State) (a : Answer) : (s.answering a).flog = s.flog := rfl
@[simp] theorem State.answering_par (s : State) (a : Answer) : (s.answering a).par = s.par := rfl
@[simp] theorem State.answering_answer (s : State) (a : Answer) : (s.answering a).answer = a := rfl
@[simp] theorem State.answering_port (s : State) (a : Answer) : (s.answering a).port = s.port := rfl
@[simp] theorem State.answering_chan (s : State) (a : Answer) : (s.answering a).chan = s.chan := rfl

@[simp] theorem Chan.called_sup (c : Chan) (t : TCall) : (c.called t).sup = c.sup := rfl
@[simp] theorem Chan.called_marker (c : Chan) (t : TCall) : (c.called t).marker = c.marker := rfl
@[simp] theorem Chan.called_bitMode (c : Chan) (t : TCall) : (c.called t).bitMode = c.bitMode := rfl
@[simp] theorem Chan.called_usbIn (c : Chan) (t : TCall) : (c.called t).usbIn = c.usbIn := rfl
@[simp] theorem Chan.called_usbOut (c : Chan) (t : TCall) : (c.called t).usbOut = c.usbOut := rfl
@[simp] theorem Chan.called_rdTimeout (c : Chan) (t : TCall) : (c.called t).rdTimeout = c.rdTimeout := rfl
@[simp] theorem Chan.called_wrTimeout (c : Chan) (t : TCall) : (c.called t).wrTimeout = c.wrTimeout := rfl
@[simp] theorem Chan.called_latency (c : Chan) (t : TCall) : (c.called t).latency = c.latency := rfl
@[simp] theorem Chan.called_tx (c : Chan) (t : TCall) : (c.called t).tx = c.tx := rfl
@[simp] theorem Chan.called_rx (c : Chan) (t : TCall) : (c.called t).rx = c.rx := rfl
@[simp] theorem Chan.called_inFlight (c : Chan) (t : TCall) : (c.called t).inFlight = c.inFlight := rfl
@[simp] theorem Chan.called_eng (c : Chan) (t : TCall) : (c.called t).eng = c.eng := rfl
@[simp] theorem Chan.called_target (c : Chan) (t : TCall) : (c.called t).target = c.target := rfl
@[simp] theorem Chan.called_wire (c : Chan) (t : TCall) : (c.called t).wire = c.wire := rfl
@[simp] theorem Chan.called_calls (c : Chan) (t : TCall) : (c.called t).calls = c.calls ++ [t] := rfl
@[simp] theorem Chan.called_turns (c : Chan) (t : TCall) : (c.called t).turns = c.turns := rfl
@[simp] theorem Chan.called_din (c : Chan) (t : TCall) : (c.called t).din = c.din := rfl
@[simp] theorem Chan.called_pins (c : Chan) (t : TCall) : (c.called t).pins = c.pins := rfl
@[simp] theorem Chan.called_fresh (c : Chan) (t : TCall) : (c.called t).fresh = c.fresh := rfl

@[simp] theorem Chan.deliver_sup (c : Chan) (n : Nat) : (c.deliver n).sup = c.sup := rfl
@[simp] theorem Chan.deliver_marker (c : Chan) (n : Nat) : (c.deliver n).marker = c.marker := rfl
@[simp] theorem Chan.deliver_bitMode (c : Chan) (n : Nat) : (c.deliver n).bitMode = c.bitMode := rfl
@[simp] theorem Chan.deliver_usbIn (c : Chan) (n : Nat) : (c.deliver n).usbIn = c.usbIn := rfl
@[simp] theorem Chan.deliver_usbOut (c : Chan) (n : Nat) : (c.deliver n).usbOut = c.usbOut := rfl
@[simp] theorem Chan.deliver_rdTimeout (c : Chan) (n : Nat) : (c.deliver n).rdTimeout = c.rdTimeout := rfl
@[simp] theorem Chan.deliver_wrTimeout (c : Chan) (n : Nat) : (c.deliver n).wrTimeout = c.wrTimeout := rfl
@[simp] theorem Chan.deliver_latency (c : Chan) (n : Nat) : (c.deliver n).latency = c.latency := rfl
@[simp] theorem Chan.deliver_tx (c : Chan) (n : Nat) : (c.deliver n).tx = c.tx := rfl
@[simp] theorem Chan.deliver_rx (c : Chan) (n : Nat) : (c.deliver n).rx = c.rx ++ (c.inFlight ++ c.eng.gathered).take n := rfl
@[simp] theorem Chan.deliver_inFlight (c : Chan) (n : Nat) : (c.deliver n).inFlight = c.inFlight.drop n := rfl
@[simp] theorem Chan.deliver_eng (c : Chan) (n : Nat) : (c.deliver n).eng = { c.eng with gathered := c.eng.gathered.drop (n - c.inFlight.length) } := rfl
@[simp] theorem Chan.deliver_target (c : Chan) (n : Nat) : (c.deliver n).target = c.target := rfl
@[simp] theorem Chan.deliver_wire (c : Chan) (n : Nat) : (c.deliver n).wire = c.wire := rfl
@[simp] theorem Chan.deliver_calls (c : Chan) (n : Nat) : (c.deliver n).calls = c.calls := rfl
@[simp] theorem Chan.deliver_turns (c : Chan) (n : Nat) : (c.deliver n).turns = c.turns := rfl
@[simp] theorem Chan.deliver_din (c : Chan) (n : Nat) : (c.deliver n).din = c.din := rfl
@[simp] theorem Chan.deliver_pins (c : Chan) (n : Nat) : (c.deliver n).pins = c.pins := rfl
@[simp] theorem Chan.deliver_fresh (c : Chan) (n : Nat) : (c.deliver n).fresh = c.fresh := rfl

@[simp] theorem Chan.gather_sup (c : Chan) (bs : List Byte) : (c.gather bs).sup = c.sup := rfl
@[simp] theorem Chan.gather_marker (c : Chan) (bs : List Byte) : (c.gather bs).marker = c.marker := rfl
@[simp] theorem Chan.gather_bitMode (c : Chan) (bs : List Byte) : (c.gather bs).bitMode = c.bitMode := rfl
@[simp] theorem Chan.gather_usbIn (c : Chan) (bs : List Byte) : (c.gather bs).usbIn = c.usbIn := rfl
@[simp] theorem Chan.gather_usbOut (c : Chan) (bs : List Byte) : (c.gather bs).usbOut = c.usbOut := rfl
@[simp] theorem Chan.gather_rdTimeout (c : Chan) (bs : List Byte) : (c.gather bs).rdTimeout = c.rdTimeout := rfl
@[simp] theorem Chan.gather_wrTimeout (c : Chan) (bs : List Byte) : (c.gather bs).wrTimeout = c.wrTimeout := rfl
@[simp] theorem Chan.gather_latency (c : Chan) (bs : List Byte) : (c.gather bs).latency = c.latency := rfl
@[simp] theorem Chan.gather_tx (c : Chan) (bs : List Byte) : (c.gather bs).tx = c.tx := rfl
@[simp] theorem Chan.gather_rx (c : Chan) (bs : List Byte) : (c.gather bs).rx = c.rx := rfl
@[simp] theorem Chan.gather_inFlight (c : Chan) (bs : List Byte) : (c.gather bs).inFlight = c.inFlight := rfl
@[simp] theorem Chan.gather_eng (c : Chan) (bs : List Byte) : (c.gather bs).eng = { c.eng with gathered := c.eng.gathered ++ bs } := rfl
@[simp] theorem Chan.gather_target (c : Chan) (bs : List Byte) : (c.gather bs).target = c.target := rfl
@[simp] theorem Chan.gather_wire (c : Chan) (bs : List Byte) : (c.gather bs).wire = c.wire := rfl
@[simp] theorem Chan.gather_calls (c : Chan) (bs : List Byte) : (c.gather bs).calls = c.calls := rfl
@[simp] theorem Chan.gather_turns (c : Chan) (bs : List Byte) : (c.gather bs).turns = c.turns := rfl
@[simp] theorem Chan.gather_din (c : Chan) (bs : List Byte) : (c.gather bs).din = c.din := rfl
@[simp] theorem Chan.gather_pins (c : Chan) (bs : List Byte) : (c.gather bs).pins = c.pins := rfl
@[simp] theorem Chan.gather_fresh (c : Chan) (bs : List Byte) : (c.gather bs).fresh = c.fresh := rfl

@[simp] theorem Chan.loseTap_sup (c : Chan) : (c.loseTap).sup = c.sup := rfl
@[simp] theorem Chan.loseTap_marker (c : Chan) : (c.loseTap).marker = c.marker := rfl
@[simp] theorem Chan.loseTap_bitMode (c : Chan) : (c.loseTap).bitMode = c.bitMode := rfl
@[simp] theorem Chan.loseTap_usbIn (c : Chan) : (c.loseTap).usbIn = c.usbIn := rfl
@[simp] theorem Chan.loseTap_usbOut (c : Chan) : (c.loseTap).usbOut = c.usbOut := rfl
@[simp] theorem Chan.loseTap_rdTimeout (c : Chan) : (c.loseTap).rdTimeout = c.rdTimeout := rfl
@[simp] theorem Chan.loseTap_wrTimeout (c : Chan) : (c.loseTap).wrTimeout = c.wrTimeout := rfl
@[simp] theorem Chan.loseTap_latency (c : Chan) : (c.loseTap).latency = c.latency := rfl
@[simp] theorem Chan.loseTap_tx (c : Chan) : (c.loseTap).tx = c.tx := rfl
@[simp] theorem Chan.loseTap_rx (c : Chan) : (c.loseTap).rx = c.rx := rfl
@[simp] theorem Chan.loseTap_inFlight (c : Chan) : (c.loseTap).inFlight = c.inFlight := rfl
@[simp] theorem Chan.loseTap_eng (c : Chan) : (c.loseTap).eng = c.eng := rfl
@[simp] theorem Chan.loseTap_target (c : Chan) : (c.loseTap).target = Config.freeTap c.fresh := rfl
@[simp] theorem Chan.loseTap_wire (c : Chan) : (c.loseTap).wire = c.wire := rfl
@[simp] theorem Chan.loseTap_calls (c : Chan) : (c.loseTap).calls = c.calls := rfl
@[simp] theorem Chan.loseTap_turns (c : Chan) : (c.loseTap).turns = c.turns := rfl
@[simp] theorem Chan.loseTap_din (c : Chan) : (c.loseTap).din = c.din := rfl
@[simp] theorem Chan.loseTap_pins (c : Chan) : (c.loseTap).pins = c.pins := rfl
@[simp] theorem Chan.loseTap_fresh (c : Chan) : (c.loseTap).fresh = c.fresh + 1 := rfl

end Sys2Proof.Machine
end

