-- ==== Sys2Proof/Laws/Engine.lean ====
section
/-! SUPPORT. What the engine's shared operations do: a pulse, a run of pulses, gathering, and one engine step on an encoded
command. -/

namespace Sys2Proof.Machine

theorem Chan.SameStreams.refl (c : Chan) : c.SameStreams c := by simp [Chan.SameStreams]

theorem Chan.SameStreams.trans {c d e : Chan} (h : c.SameStreams d) (k : d.SameStreams e) : c.SameStreams e := by
  unfold Chan.SameStreams at *
  obtain ⟨h1, h2, h3, h4, h5, h6, h7, h8, h9, h10, h11, h12, h13, h14, h15, h16, h17, h18, h19, h20, h21, h22,
    h23, h24⟩ := h
  obtain ⟨k1, k2, k3, k4, k5, k6, k7, k8, k9, k10, k11, k12, k13, k14, k15, k16, k17, k18, k19, k20, k21, k22,
    k23, k24⟩ := k
  exact ⟨k1.trans h1, k2.trans h2, k3.trans h3, k4.trans h4, k5.trans h5, k6.trans h6, k7.trans h7, k8.trans h8,
    k9.trans h9, k10.trans h10, k11.trans h11, k12.trans h12, k13.trans h13, k14.trans h14, k15.trans h15,
    k16.trans h16, k17.trans h17, k18.trans h18, k19.trans h19, k20.trans h20, k21.trans h21, k22.trans h22, k23.trans h23,
    k24.trans h24⟩

/-! ## Bits of a pin byte -/

@[simp] theorem putBit_same (v : Byte) (b : Bool) : ∀ i < 8, (putBit v i b).getLsbD i = b := by
  intro i hi
  unfold putBit
  cases b
  · simp [hi]
  · simp [hi]

theorem putBit_other (v : Byte) (b : Bool) {i j : Nat} (h : j ≠ i) : (putBit v i b).getLsbD j = v.getLsbD j := by
  unfold putBit
  by_cases hj : j < 8
  · cases b
    · simp [hj]
      intro _
      omega
    · simp [hj]
      intro h1 h2
      omega
  · rw [BitVec.getLsbD_of_ge _ _ (by omega), BitVec.getLsbD_of_ge _ _ (by omega)]

/-! ## Samples -/

/-- What sampling the data-in pin can do to the channel: the environment's list loses its head at most, the counter of
free values grows by one at most; nothing else changes. -/
theorem Chan.sampleDin_spec (dout : Bool) (c : Chan) : ∃ d n, (c.sampleDin dout).2 = { c with din := d, fresh := n } := by
  by_cases hl : c.eng.loopback = true
  · exact ⟨c.din, c.fresh, by simp [Chan.sampleDin, hl]⟩
  · rcases hv : c.eng.lowLevel dataInBit with _ | v
    · rcases hd : c.din with _ | ⟨b, rest⟩
      · exact ⟨c.din, c.fresh + 1, by simp [Chan.sampleDin, hl, hv, hd]⟩
      · exact ⟨rest, c.fresh, by simp [Chan.sampleDin, hl, hv, hd]⟩
    · exact ⟨c.din, c.fresh, by simp [Chan.sampleDin, hl, hv]⟩

/-- The sample of one pulse: there is one exactly when the command reads. -/
theorem Chan.sample_spec (r : Option Edge) (dout : Bool) (c : Chan) :
    (c.sample r dout).1.isSome = r.isSome ∧ ∃ d n, (c.sample r dout).2 = { c with din := d, fresh := n } := by
  cases r with
  | none => exact ⟨rfl, c.din, c.fresh, rfl⟩
  | some e => exact ⟨rfl, c.sampleDin_spec dout⟩

/-- In loopback a sample is the data-out level (R264). -/
theorem Chan.sample_loopback (e : Edge) (dout : Bool) (c : Chan) (h : c.eng.loopback = true) :
    c.sample (some e) dout = (some dout, c) := by
  simp [Chan.sample, Chan.sampleDin, h]

/-! ## Pulses -/

/-- What one pulse does: the levels are latched, the record grows by the pulse, the target moves; every other field but
the environment's list and the counter is as before. -/
theorem Chan.pulse_spec (w r : Option Edge) (dout tms : Bool) (c : Chan) :
    ∃ p : Pulse, (c.pulse w r dout tms).1 = p.din
      ∧ (p.dout, p.tms) = (dout, tms)
      ∧ (p.write = w ∧ p.read = r ∧ p.din.isSome = r.isSome ∧ p.idle = c.eng.clockIdle
          ∧ p.threePhase = c.eng.threePhase ∧ p.adaptive = c.eng.adaptive)
      ∧ ∃ t d n, (c.pulse w r dout tms).2 =
          { c with
            eng := { c.eng with lowVal := putBit (putBit c.eng.lowVal dataOutBit dout) selectBit tms }
            target := t, wire := c.wire ++ [.pulse p], din := d, fresh := n } := by
  obtain ⟨hs, d, n, hd⟩ := c.sample_spec r dout
  refine ⟨⟨c.eng.clockIdle, dout, tms, w, r, (c.sample r dout).1, c.eng.threePhase, c.eng.adaptive⟩, rfl, rfl,
    ⟨rfl, rfl, hs, rfl, rfl, rfl⟩, ?_⟩
  unfold Chan.pulse Chan.clockTap
  simp only [hd]
  split
  · exact ⟨_, d, n, rfl⟩
  · exact ⟨_, d, n + 1, rfl⟩

/-- What a run of pulses does (R221, R222). -/
theorem Chan.pulses_spec (w r : Option Edge) (ls : List (Bool × Bool)) (c : Chan) :
    ∃ ps, c.Clocked w r ls (c.pulses w r ls).2 ps
      ∧ (c.pulses w r ls).1 = samplesOf ps
      ∧ c.SameStreams (c.pulses w r ls).2
      ∧ (c.pulses w r ls).2.eng.gathered = c.eng.gathered
      ∧ (c.pulses w r ls).2.eng.lowVal =
          ls.foldl (fun v x => putBit (putBit v dataOutBit x.1) selectBit x.2) c.eng.lowVal := by
  induction ls generalizing c with
  | nil => exact ⟨[], ⟨by simp [Chan.pulses], rfl, by simp⟩, rfl, Chan.SameStreams.refl c, rfl, rfl⟩
  | cons x ls ih =>
    obtain ⟨p, hp1, hp2, hp3, t, d, n, hc⟩ := c.pulse_spec w r x.1 x.2
    obtain ⟨ps, ⟨h1, h2, h3⟩, h4, h5, h6, h7⟩ := ih (c.pulse w r x.1 x.2).2
    have hidle : (c.pulse w r x.1 x.2).2.eng.clockIdle = c.eng.clockIdle := by
      rw [hc]
      simp only [Engine.clockIdle]
      rw [putBit_other _ _ (by decide), putBit_other _ _ (by decide)]
    refine ⟨p :: ps, ⟨?_, ?_, ?_⟩, ?_, ?_, ?_, ?_⟩
    · rw [Chan.pulses, h1, hc]; simp
    · rw [List.map_cons, h2, hp2]
    · intro q hq
      rcases List.mem_cons.1 hq with rfl | hq
      · exact hp3
      · obtain ⟨a, b, e, f, g, h⟩ := h3 q hq
        exact ⟨a, b, e, f.trans hidle, g.trans (by rw [hc]), h.trans (by rw [hc])⟩
    · rw [Chan.pulses, h4, hp1]
      unfold samplesOf
      cases h : p.din <;> simp [h]
    · rw [Chan.pulses]
      refine Chan.SameStreams.trans ?_ h5
      rw [hc]
      simp [Chan.SameStreams]
    · rw [Chan.pulses, h6, hc]
    · rw [Chan.pulses, h7, hc]; rfl

theorem Chan.pulses_append (w r : Option Edge) (xs ys : List (Bool × Bool)) (c : Chan) :
    c.pulses w r (xs ++ ys)
      = ((c.pulses w r xs).1 ++ ((c.pulses w r xs).2.pulses w r ys).1, ((c.pulses w r xs).2.pulses w r ys).2) := by
  induction xs generalizing c with
  | nil => rfl
  | cons x xs ih => simp [Chan.pulses, ih, List.append_assoc]

/-! ## Shifts -/

theorem Chan.dataPulses_same (w r : Option Edge) (bits : List Bool) (c : Chan) :
    c.SameStreams (c.dataPulses w r bits).2 := by
  obtain ⟨_, _, _, h, _⟩ := c.pulses_spec w r (bits.map fun b => (b, c.eng.tmsLevel))
  exact h

theorem Chan.shiftBytes_same (ord : BitOrder) (w r : Option Edge) (ds : List Byte) (c : Chan) :
    c.SameStreams (c.shiftBytes ord w r ds).2 := by
  induction ds generalizing c with
  | nil => exact Chan.SameStreams.refl c
  | cons d ds ih => exact (c.dataPulses_same w r _).trans (ih _)

theorem Chan.shiftBytes_length (ord : BitOrder) (w r : Option Edge) (ds : List Byte) (c : Chan) :
    (c.shiftBytes ord w r ds).1.length = ds.length := by
  induction ds generalizing c with
  | nil => rfl
  | cons d ds ih => simp [Chan.shiftBytes, ih]

theorem Chan.readBytes_same (ord : BitOrder) (r : Edge) (n : Nat) (c : Chan) :
    c.SameStreams (c.readBytes ord r n).2 := by
  induction n generalizing c with
  | zero => exact Chan.SameStreams.refl c
  | succ n ih => exact (c.dataPulses_same none (some r) _).trans (ih _)

theorem Chan.readBytes_length (ord : BitOrder) (r : Edge) (n : Nat) (c : Chan) :
    (c.readBytes ord r n).1.length = n := by
  induction n generalizing c with
  | zero => rfl
  | succ n ih => simp [Chan.readBytes, ih]

theorem Chan.gather_same (bs : List Byte) (c : Chan) : c.SameStreams (c.gather bs) := by simp [Chan.SameStreams]

theorem Chan.gatherBits_same (ord : BitOrder) (bits : List Bool) (c : Chan) : c.SameStreams (c.gatherBits ord bits) := by
  simp [Chan.gatherBits, Chan.SameStreams]

theorem Chan.bitCount_same (k : Nat) (c : Chan) : c.SameStreams (c.bitCount k).2 := by
  unfold Chan.bitCount
  split <;> simp [Chan.SameStreams]

theorem Chan.tmsCount_same (m : Nat) (c : Chan) : c.SameStreams (c.tmsCount m).2 := by
  unfold Chan.tmsCount
  split <;> simp [Chan.SameStreams]

theorem Chan.bitCount_ok {k : Nat} (c : Chan) (h : 1 ≤ k ∧ k ≤ 8) : c.bitCount k = (k, c) := if_pos h

theorem Chan.tmsCount_ok {m : Nat} (c : Chan) (h : 1 ≤ m ∧ m ≤ 7) : c.tmsCount m = (m, c) := if_pos h

theorem Chan.outBytes_same (ord : BitOrder) (w : Edge) (d : List Byte) (c : Chan) :
    c.SameStreams (c.outBytes ord w d) := c.shiftBytes_same ord (some w) none d

theorem Chan.inBytes_same (ord : BitOrder) (r : Edge) (n : Nat) (c : Chan) : c.SameStreams (c.inBytes ord r n) :=
  (c.readBytes_same ord r n).trans (Chan.gather_same _ _)

theorem Chan.ioBytes_same (ord : BitOrder) (w r : Edge) (d : List Byte) (c : Chan) :
    c.SameStreams (c.ioBytes ord w r d) := (c.shiftBytes_same ord (some w) (some r) d).trans (Chan.gather_same _ _)

theorem Chan.outBits_same (ord : BitOrder) (w : Edge) (k : Nat) (d : Byte) (c : Chan) :
    c.SameStreams (c.outBits ord w k d) := (c.bitCount_same k).trans (Chan.dataPulses_same _ _ _ _)

theorem Chan.inBits_same (ord : BitOrder) (r : Edge) (k : Nat) (c : Chan) : c.SameStreams (c.inBits ord r k) :=
  ((c.bitCount_same k).trans (Chan.dataPulses_same _ _ _ _)).trans (Chan.gatherBits_same _ _ _)

theorem Chan.ioBits_same (ord : BitOrder) (w r : Edge) (k : Nat) (d : Byte) (c : Chan) :
    c.SameStreams (c.ioBits ord w r k d) :=
  ((c.bitCount_same k).trans (Chan.dataPulses_same _ _ _ _)).trans (Chan.gatherBits_same _ _ _)

theorem Chan.tmsOut_same (w : Edge) (m : Nat) (d : Byte) (c : Chan) : c.SameStreams (c.tmsOut w m d) := by
  obtain ⟨_, _, _, h, _⟩ := (c.tmsCount m).2.pulses_spec (some w) none (tmsPulses (c.tmsCount m).1 d)
  exact (c.tmsCount_same m).trans h

theorem Chan.tmsIo_same (w r : Edge) (m : Nat) (d : Byte) (c : Chan) : c.SameStreams (c.tmsIo w r m d) := by
  obtain ⟨_, _, _, h, _⟩ := (c.tmsCount m).2.pulses_spec (some w) (some r) (tmsPulses (c.tmsCount m).1 d)
  exact ((c.tmsCount_same m).trans h).trans (Chan.gatherBits_same _ _ _)

/-! ## Pins -/

/-- Moving pins changes the engine as told, and the target and the counter of free values at most (R329). -/
theorem Chan.movePins_spec (c : Chan) (e : Engine) : ∃ t n, c.movePins e = { c with eng := e, target := t, fresh := n } := by
  unfold Chan.movePins
  split
  · split
    · split
      · exact ⟨_, _, rfl⟩
      · exact ⟨_, _, rfl⟩
    · exact ⟨_, _, rfl⟩
    · exact ⟨_, _, rfl⟩
  all_goals exact ⟨_, _, rfl⟩

theorem Chan.outside_spec (c : Chan) : ∃ p n, c.outside.2 = { c with pins := p, fresh := n } := by
  unfold Chan.outside
  split
  · exact ⟨_, _, rfl⟩
  · exact ⟨_, _, rfl⟩

/-- What a pin read's clocks do: pulses on the wire, one at least; the target and the counter of free values (R69). -/
theorem Chan.readClocks_spec (c : Chan) :
    ∃ ps t n, ps ≠ [] ∧ c.readClocks = { c with target := t, wire := c.wire ++ ps.map .pulse, fresh := n } := by
  obtain ⟨ps, ⟨hw, hl, -⟩, -⟩ := Chan.pulses_spec none none
    (List.replicate (Config.freeReadClocks c.fresh + 1) (c.eng.dataOut, c.eng.tmsLevel)) { c with fresh := c.fresh + 1 }
  refine ⟨ps, _, _, ?_, by unfold Chan.readClocks; simp only [hw]; rfl⟩
  rintro rfl
  simp [List.replicate_succ] at hl

/-- What a pin read does: one response byte, pulses on the wire; the target, the environment's list and the counter (R69,
R261, R263). -/
theorem Chan.readPins_spec (val dir od : Byte) (c : Chan) :
    ∃ b ps p t n, ps ≠ [] ∧ c.readPins val dir od =
      { c with
        pins := p, target := t, wire := c.wire ++ ps.map .pulse, fresh := n
        eng := { c.eng with gathered := c.eng.gathered ++ [b] } } := by
  obtain ⟨p, m, h⟩ := c.outside_spec
  obtain ⟨ps, t, n, hp, hc⟩ := c.outside.2.readClocks_spec
  exact ⟨_, ps, p, t, n, hp, by rw [Chan.readPins, hc, h]; rfl⟩

end Sys2Proof.Machine
end

