-- ==== Sys2Proof/Laws/Channel.lean ====
section
/-! SUPPORT. What the channel agent's operations leave alone: an engine command, an engine step, the engine at work, and
each transport call; and that the engine works through the whole stream. -/

namespace Sys2Proof.Machine

@[simp] theorem Chan.movePins_sup (c : Chan) (e : Engine) : (c.movePins e).sup = c.sup := by
  obtain ⟨_, _, h⟩ := c.movePins_spec e
  rw [h]

@[simp] theorem Chan.movePins_tx (c : Chan) (e : Engine) : (c.movePins e).tx = c.tx := by
  obtain ⟨_, _, h⟩ := c.movePins_spec e
  rw [h]

@[simp] theorem Chan.readPins_sup (v d o : Byte) (c : Chan) : (c.readPins v d o).sup = c.sup := by
  obtain ⟨_, _, _, _, _, _, h⟩ := c.readPins_spec v d o
  rw [h]

@[simp] theorem Chan.readPins_tx (v d o : Byte) (c : Chan) : (c.readPins v d o).tx = c.tx := by
  obtain ⟨_, _, _, _, _, _, h⟩ := c.readPins_spec v d o
  rw [h]

theorem Chan.gated_sup (g : Gate) (op : Byte) (ops : List Byte) (act : Chan → Chan) (c : Chan)
    (h : ∀ d : Chan, (act d).sup = d.sup) : (c.gated g op ops act).sup = c.sup := by
  unfold Chan.gated
  split
  · exact h c
  · rfl

theorem Chan.gated_tx (g : Gate) (op : Byte) (act : Chan → Chan) (c : Chan)
    (h : ∀ d : Chan, (act d).tx = d.tx) : (c.gated g op [] act).tx = c.tx := by
  unfold Chan.gated
  split
  · exact h c
  · rfl

@[simp] theorem Chan.movePins_marker (c : Chan) (e : Engine) : (c.movePins e).marker = c.marker := by
  obtain ⟨_, _, h⟩ := c.movePins_spec e
  rw [h]

@[simp] theorem Chan.readPins_marker (v d o : Byte) (c : Chan) : (c.readPins v d o).marker = c.marker := by
  obtain ⟨_, _, _, _, _, _, h⟩ := c.readPins_spec v d o
  rw [h]

/-- What a mode change does: bit mode, record, directions; the target only when MPSSE mode is entered (R64, R212). -/
theorem Chan.enterMode_spec (mask : Byte) (m : BitMode) (c : Chan) :
    ∃ t n h, c.enterMode mask m = { c with
        bitMode := m
        wire := c.wire ++ [.mode mask m]
        eng := { c.eng with lowDir := mask, highDir := h }
        target := t
        fresh := n }
      ∧ (m = .reset → t = c.target ∧ n = c.fresh ∧ h = 0) ∧ (m = .mpsse → h = c.eng.highDir) := by
  cases m
  · exact ⟨_, _, _, rfl, fun _ => ⟨rfl, rfl, rfl⟩, nofun⟩
  · obtain ⟨t, n, h⟩ := Chan.movePins_spec { c with bitMode := .mpsse, wire := c.wire ++ [.mode mask .mpsse] }
      { c.eng with lowDir := mask }
    exact ⟨t, n, _, h, nofun, fun _ => rfl⟩

@[simp] theorem Chan.enterMode_sup (mask : Byte) (m : BitMode) (c : Chan) : (c.enterMode mask m).sup = c.sup := by
  obtain ⟨_, _, _, h, _⟩ := c.enterMode_spec mask m
  rw [h]

@[simp] theorem Chan.enterMode_marker (mask : Byte) (m : BitMode) (c : Chan) :
    (c.enterMode mask m).marker = c.marker := by
  obtain ⟨_, _, _, h, _⟩ := c.enterMode_spec mask m
  rw [h]

theorem Chan.gated_marker (g : Gate) (op : Byte) (ops : List Byte) (act : Chan → Chan) (c : Chan)
    (h : ∀ d : Chan, (act d).marker = d.marker) : (c.gated g op ops act).marker = c.marker := by
  unfold Chan.gated
  split
  · exact h c
  · rfl

/-- No command changes the capabilities (R30). -/
theorem engCmd_sup (i : Instr) (c : Chan) : (engCmd i c).sup = c.sup := by
  cases i
  case outBytesWpMsb => exact (Chan.outBytes_same _ _ _ _).2.2.1
  case outBytesWnMsb => exact (Chan.outBytes_same _ _ _ _).2.2.1
  case outBytesWpLsb => exact (Chan.outBytes_same _ _ _ _).2.2.1
  case outBytesWnLsb => exact (Chan.outBytes_same _ _ _ _).2.2.1
  case outBitsWpMsb => exact (Chan.outBits_same _ _ _ _ _).2.2.1
  case outBitsWnMsb => exact (Chan.outBits_same _ _ _ _ _).2.2.1
  case outBitsWpLsb => exact (Chan.outBits_same _ _ _ _ _).2.2.1
  case outBitsWnLsb => exact (Chan.outBits_same _ _ _ _ _).2.2.1
  case inBytesRpMsb => exact (Chan.inBytes_same _ _ _ _).2.2.1
  case inBytesRnMsb => exact (Chan.inBytes_same _ _ _ _).2.2.1
  case inBytesRpLsb => exact (Chan.inBytes_same _ _ _ _).2.2.1
  case inBytesRnLsb => exact (Chan.inBytes_same _ _ _ _).2.2.1
  case inBitsRpMsb => exact (Chan.inBits_same _ _ _ _).2.2.1
  case inBitsRnMsb => exact (Chan.inBits_same _ _ _ _).2.2.1
  case inBitsRpLsb => exact (Chan.inBits_same _ _ _ _).2.2.1
  case inBitsRnLsb => exact (Chan.inBits_same _ _ _ _).2.2.1
  case ioBytesWnRpMsb => exact (Chan.ioBytes_same _ _ _ _ _).2.2.1
  case ioBytesWpRnMsb => exact (Chan.ioBytes_same _ _ _ _ _).2.2.1
  case ioBytesWnRpLsb => exact (Chan.ioBytes_same _ _ _ _ _).2.2.1
  case ioBytesWpRnLsb => exact (Chan.ioBytes_same _ _ _ _ _).2.2.1
  case ioBitsWnRpMsb => exact (Chan.ioBits_same _ _ _ _ _ _).2.2.1
  case ioBitsWpRnMsb => exact (Chan.ioBits_same _ _ _ _ _ _).2.2.1
  case ioBitsWnRpLsb => exact (Chan.ioBits_same _ _ _ _ _ _).2.2.1
  case ioBitsWpRnLsb => exact (Chan.ioBits_same _ _ _ _ _ _).2.2.1
  case tmsWp => exact (Chan.tmsOut_same _ _ _ _).2.2.1
  case tmsWn => exact (Chan.tmsOut_same _ _ _ _).2.2.1
  case tmsrWpRp => exact (Chan.tmsIo_same _ _ _ _ _).2.2.1
  case tmsrWnRp => exact (Chan.tmsIo_same _ _ _ _ _).2.2.1
  case tmsrWpRn => exact (Chan.tmsIo_same _ _ _ _ _).2.2.1
  case tmsrWnRn => exact (Chan.tmsIo_same _ _ _ _ _).2.2.1
  case setLow => exact Chan.movePins_sup _ _
  case getLow => exact c.readPins_sup _ _ _
  case getHigh => exact c.readPins_sup _ _ _
  case div5Off => exact Chan.gated_sup _ _ _ _ _ fun _ => rfl
  case div5On => exact Chan.gated_sup _ _ _ _ _ fun _ => rfl
  case ph3On => exact Chan.gated_sup _ _ _ _ _ fun _ => rfl
  case ph3Off => exact Chan.gated_sup _ _ _ _ _ fun _ => rfl
  case adaptOn => exact Chan.gated_sup _ _ _ _ _ fun _ => rfl
  case adaptOff => exact Chan.gated_sup _ _ _ _ _ fun _ => rfl
  case odCfg => exact Chan.gated_sup _ _ _ _ _ fun d => d.movePins_sup _
  all_goals rfl

/-- No command changes the bad-command marker (R96). -/
theorem engCmd_marker (i : Instr) (c : Chan) : (engCmd i c).marker = c.marker := by
  cases i
  case outBytesWpMsb => exact (Chan.outBytes_same _ _ _ _).2.2.2.1
  case outBytesWnMsb => exact (Chan.outBytes_same _ _ _ _).2.2.2.1
  case outBytesWpLsb => exact (Chan.outBytes_same _ _ _ _).2.2.2.1
  case outBytesWnLsb => exact (Chan.outBytes_same _ _ _ _).2.2.2.1
  case outBitsWpMsb => exact (Chan.outBits_same _ _ _ _ _).2.2.2.1
  case outBitsWnMsb => exact (Chan.outBits_same _ _ _ _ _).2.2.2.1
  case outBitsWpLsb => exact (Chan.outBits_same _ _ _ _ _).2.2.2.1
  case outBitsWnLsb => exact (Chan.outBits_same _ _ _ _ _).2.2.2.1
  case inBytesRpMsb => exact (Chan.inBytes_same _ _ _ _).2.2.2.1
  case inBytesRnMsb => exact (Chan.inBytes_same _ _ _ _).2.2.2.1
  case inBytesRpLsb => exact (Chan.inBytes_same _ _ _ _).2.2.2.1
  case inBytesRnLsb => exact (Chan.inBytes_same _ _ _ _).2.2.2.1
  case inBitsRpMsb => exact (Chan.inBits_same _ _ _ _).2.2.2.1
  case inBitsRnMsb => exact (Chan.inBits_same _ _ _ _).2.2.2.1
  case inBitsRpLsb => exact (Chan.inBits_same _ _ _ _).2.2.2.1
  case inBitsRnLsb => exact (Chan.inBits_same _ _ _ _).2.2.2.1
  case ioBytesWnRpMsb => exact (Chan.ioBytes_same _ _ _ _ _).2.2.2.1
  case ioBytesWpRnMsb => exact (Chan.ioBytes_same _ _ _ _ _).2.2.2.1
  case ioBytesWnRpLsb => exact (Chan.ioBytes_same _ _ _ _ _).2.2.2.1
  case ioBytesWpRnLsb => exact (Chan.ioBytes_same _ _ _ _ _).2.2.2.1
  case ioBitsWnRpMsb => exact (Chan.ioBits_same _ _ _ _ _ _).2.2.2.1
  case ioBitsWpRnMsb => exact (Chan.ioBits_same _ _ _ _ _ _).2.2.2.1
  case ioBitsWnRpLsb => exact (Chan.ioBits_same _ _ _ _ _ _).2.2.2.1
  case ioBitsWpRnLsb => exact (Chan.ioBits_same _ _ _ _ _ _).2.2.2.1
  case tmsWp => exact (Chan.tmsOut_same _ _ _ _).2.2.2.1
  case tmsWn => exact (Chan.tmsOut_same _ _ _ _).2.2.2.1
  case tmsrWpRp => exact (Chan.tmsIo_same _ _ _ _ _).2.2.2.1
  case tmsrWnRp => exact (Chan.tmsIo_same _ _ _ _ _).2.2.2.1
  case tmsrWpRn => exact (Chan.tmsIo_same _ _ _ _ _).2.2.2.1
  case tmsrWnRn => exact (Chan.tmsIo_same _ _ _ _ _).2.2.2.1
  case setLow => exact Chan.movePins_marker _ _
  case getLow => exact c.readPins_marker _ _ _
  case getHigh => exact c.readPins_marker _ _ _
  case div5Off => exact Chan.gated_marker _ _ _ _ _ fun _ => rfl
  case div5On => exact Chan.gated_marker _ _ _ _ _ fun _ => rfl
  case ph3On => exact Chan.gated_marker _ _ _ _ _ fun _ => rfl
  case ph3Off => exact Chan.gated_marker _ _ _ _ _ fun _ => rfl
  case adaptOn => exact Chan.gated_marker _ _ _ _ _ fun _ => rfl
  case adaptOff => exact Chan.gated_marker _ _ _ _ _ fun _ => rfl
  case odCfg => exact Chan.gated_marker _ _ _ _ _ fun d => d.movePins_marker _
  all_goals rfl

/-- A command leaves the stream behind it alone, but that the operand bytes of an unrecognised `OD_CFG` go back to it
(R277, log entry 29). -/
theorem engCmd_tx (i : Instr) (c : Chan) :
    (engCmd i c).tx = c.tx ∨ ∃ l h, i = .odCfg l h ∧ (engCmd i c).tx = l :: h :: c.tx := by
  cases i
  case odCfg l h =>
    simp only [engCmd, cmdOdCfg, Chan.gated]
    split
    · exact .inl (c.movePins_tx _)
    · exact .inr ⟨l, h, rfl, rfl⟩
  all_goals left
  case outBytesWpMsb => exact (Chan.outBytes_same _ _ _ _).1
  case outBytesWnMsb => exact (Chan.outBytes_same _ _ _ _).1
  case outBytesWpLsb => exact (Chan.outBytes_same _ _ _ _).1
  case outBytesWnLsb => exact (Chan.outBytes_same _ _ _ _).1
  case outBitsWpMsb => exact (Chan.outBits_same _ _ _ _ _).1
  case outBitsWnMsb => exact (Chan.outBits_same _ _ _ _ _).1
  case outBitsWpLsb => exact (Chan.outBits_same _ _ _ _ _).1
  case outBitsWnLsb => exact (Chan.outBits_same _ _ _ _ _).1
  case inBytesRpMsb => exact (Chan.inBytes_same _ _ _ _).1
  case inBytesRnMsb => exact (Chan.inBytes_same _ _ _ _).1
  case inBytesRpLsb => exact (Chan.inBytes_same _ _ _ _).1
  case inBytesRnLsb => exact (Chan.inBytes_same _ _ _ _).1
  case inBitsRpMsb => exact (Chan.inBits_same _ _ _ _).1
  case inBitsRnMsb => exact (Chan.inBits_same _ _ _ _).1
  case inBitsRpLsb => exact (Chan.inBits_same _ _ _ _).1
  case inBitsRnLsb => exact (Chan.inBits_same _ _ _ _).1
  case ioBytesWnRpMsb => exact (Chan.ioBytes_same _ _ _ _ _).1
  case ioBytesWpRnMsb => exact (Chan.ioBytes_same _ _ _ _ _).1
  case ioBytesWnRpLsb => exact (Chan.ioBytes_same _ _ _ _ _).1
  case ioBytesWpRnLsb => exact (Chan.ioBytes_same _ _ _ _ _).1
  case ioBitsWnRpMsb => exact (Chan.ioBits_same _ _ _ _ _ _).1
  case ioBitsWpRnMsb => exact (Chan.ioBits_same _ _ _ _ _ _).1
  case ioBitsWnRpLsb => exact (Chan.ioBits_same _ _ _ _ _ _).1
  case ioBitsWpRnLsb => exact (Chan.ioBits_same _ _ _ _ _ _).1
  case tmsWp => exact (Chan.tmsOut_same _ _ _ _).1
  case tmsWn => exact (Chan.tmsOut_same _ _ _ _).1
  case tmsrWpRp => exact (Chan.tmsIo_same _ _ _ _ _).1
  case tmsrWnRp => exact (Chan.tmsIo_same _ _ _ _ _).1
  case tmsrWpRn => exact (Chan.tmsIo_same _ _ _ _ _).1
  case tmsrWnRn => exact (Chan.tmsIo_same _ _ _ _ _).1
  case setLow => exact Chan.movePins_tx _ _
  case getLow => exact c.readPins_tx _ _ _
  case getHigh => exact c.readPins_tx _ _ _
  case div5Off => exact Chan.gated_tx _ _ _ _ fun _ => rfl
  case div5On => exact Chan.gated_tx _ _ _ _ fun _ => rfl
  case ph3On => exact Chan.gated_tx _ _ _ _ fun _ => rfl
  case ph3Off => exact Chan.gated_tx _ _ _ _ fun _ => rfl
  case adaptOn => exact Chan.gated_tx _ _ _ _ fun _ => rfl
  case adaptOff => exact Chan.gated_tx _ _ _ _ fun _ => rfl
  all_goals rfl

/-! ## The decoder takes at least a byte -/

@[simp] theorem writeBytes_ne_odCfg (o : WriteOp) (d : List Byte) (l m : Byte) : o.bytesInstr d ≠ .odCfg l m := by
  cases o <;> exact Instr.noConfusion

@[simp] theorem writeBits_ne_odCfg (o : WriteOp) (k : Nat) (d l m : Byte) : o.bitsInstr k d ≠ .odCfg l m := by
  cases o <;> exact Instr.noConfusion

@[simp] theorem readBytes_ne_odCfg (o : ReadOp) (n : Nat) (l m : Byte) : o.bytesInstr n ≠ .odCfg l m := by
  cases o <;> exact Instr.noConfusion

@[simp] theorem readBits_ne_odCfg (o : ReadOp) (k : Nat) (l m : Byte) : o.bitsInstr k ≠ .odCfg l m := by
  cases o <;> exact Instr.noConfusion

@[simp] theorem tms_ne_odCfg (o : TmsOp) (k : Nat) (d l m : Byte) : o.instr k d ≠ .odCfg l m := by
  cases o <;> exact Instr.noConfusion

@[simp] theorem pset_ne_odCfg (o : PsetOp) (v d l m : Byte) : o.instr v d ≠ .odCfg l m := by
  cases o <;> exact Instr.noConfusion

@[simp] theorem noarg_ne_odCfg (o : NoargOp) (l m : Byte) : o.instr ≠ .odCfg l m := by
  cases o <;> exact Instr.noConfusion

/-- What is left after a command's operands; `OD_CFG` takes two (R81). -/
theorem decodeOperands_rest (k : CmdKey) (bs : List Byte) {i : Instr} {r : List Byte}
    (h : k.decodeOperands bs = .cmd i r) : r.length ≤ bs.length ∧ ∀ l m, i = .odCfg l m → r.length + 2 ≤ bs.length := by
  cases k <;> rcases bs with _ | ⟨a, _ | ⟨b, bs⟩⟩ <;> simp only [CmdKey.decodeOperands, reduceCtorEq] at h
  all_goals try split at h
  all_goals try cases h
  all_goals simp
  all_goals omega

theorem decodeCmd_rest (bs : List Byte) {i : Instr} {r : List Byte} (h : decodeCmd bs = .cmd i r) :
    r.length < bs.length ∧ ∀ l m, i = .odCfg l m → r.length + 2 < bs.length := by
  cases bs with
  | nil => cases h
  | cons op t =>
    simp only [decodeCmd] at h
    split at h
    · obtain ⟨h1, h2⟩ := decodeOperands_rest _ _ h
      exact ⟨by simp; omega, fun l m e => by have := h2 l m e; simp; omega⟩
    · cases h

theorem decodeOperands_ne_unknown (k : CmdKey) (bs : List Byte) {op : Byte} {r : List Byte} :
    k.decodeOperands bs ≠ .unknown op r := by
  intro h
  cases k <;> rcases bs with _ | ⟨a, _ | ⟨b, bs⟩⟩ <;> simp only [CmdKey.decodeOperands, reduceCtorEq] at h
  all_goals split at h <;> cases h

theorem decodeCmd_unknown_rest (bs : List Byte) {op : Byte} {r : List Byte} (h : decodeCmd bs = .unknown op r) :
    bs = op :: r := by
  cases bs with
  | nil => cases h
  | cons b t =>
    simp only [decodeCmd] at h
    split at h
    · exact absurd h (decodeOperands_ne_unknown _ _)
    · cases h; rfl

/-! ## The engine works through the stream -/

/-- An engine step takes at least a byte of the stream and leaves the capabilities and the marker alone. -/
theorem Chan.engStep_spec {c d : Chan} (h : c.engStep = some d) : d.tx.length < c.tx.length ∧ d.sup = c.sup ∧ d.marker = c.marker := by
  unfold Chan.engStep at h
  split at h
  · rename_i i r hf
    cases h
    have hd : decodeCmd c.tx = .cmd i r := by
      unfold Chan.engFetch at hf
      split at hf
      · rename_i he
        rw [he]; exact hf
      · cases hf
      · split at hf
        · cases hf
        · split at hf <;> cases hf
    obtain ⟨h1, h2⟩ := decodeCmd_rest _ hd
    refine ⟨?_, engCmd_sup _ _, engCmd_marker _ _⟩
    rcases engCmd_tx i { c with tx := r } with h | ⟨l, m, hi, h⟩
    · rw [h]; exact h1
    · rw [h]; have := h2 l m hi; simp; omega
  · rename_i op r hf
    cases h
    refine ⟨?_, rfl, rfl⟩
    unfold Chan.engFetch at hf
    split at hf
    · cases hf
    · rename_i he
      cases hf
      rw [decodeCmd_unknown_rest _ he]
      simp [Chan.echo]
    · split at hf
      · cases hf
      · rename_i hx
        split at hf
        · cases hf
          rw [hx]
          simp [Chan.echo]
        · cases hf
  · cases h

@[simp] theorem Chan.engRun_sup (k : Nat) (c : Chan) : (c.engRun k).sup = c.sup := by
  induction k generalizing c with
  | zero => rfl
  | succ k ih =>
    unfold Chan.engRun
    split
    · rename_i d h
      rw [ih, (Chan.engStep_spec h).2.1]
    · rfl

@[simp] theorem Chan.settle_sup (c : Chan) : c.settle.sup = c.sup := c.engRun_sup _

@[simp] theorem Chan.engRun_marker (k : Nat) (c : Chan) : (c.engRun k).marker = c.marker := by
  induction k generalizing c with
  | zero => rfl
  | succ k ih =>
    unfold Chan.engRun
    split
    · rename_i d h
      rw [ih, (Chan.engStep_spec h).2.2]
    · rfl

@[simp] theorem Chan.settle_marker (c : Chan) : c.settle.marker = c.marker := c.engRun_marker _

theorem Chan.engRun_enough (c : Chan) (j k : Nat) (hj : c.tx.length ≤ j) (hk : c.tx.length ≤ k) :
    c.engRun j = c.engRun k := by
  induction j generalizing c k with
  | zero =>
    cases k with
    | zero => rfl
    | succ k =>
      unfold Chan.engRun
      split
      · rename_i d h
        have := (Chan.engStep_spec h).1
        omega
      · rfl
  | succ j ih =>
    cases k with
    | zero =>
      unfold Chan.engRun
      split
      · rename_i d h
        have := (Chan.engStep_spec h).1
        omega
      · rfl
    | succ k =>
      unfold Chan.engRun
      split
      · rename_i d h
        have := (Chan.engStep_spec h).1
        exact ih d k (by omega) (by omega)
      · rfl

/-- The engine's work is its first step, then the rest (R70). -/
theorem Chan.settle_step {c d : Chan} (h : c.engStep = some d) : c.settle = d.settle := by
  have hl := (Chan.engStep_spec h).1
  unfold Chan.settle
  obtain ⟨n, hn⟩ : ∃ n, c.tx.length = n + 1 := ⟨c.tx.length - 1, by omega⟩
  rw [hn, Chan.engRun, h]
  exact d.engRun_enough _ _ (by omega) (Nat.le_refl _)

/-- With no whole command flushed the engine waits (R88). -/
theorem Chan.settle_idle {c : Chan} (h : c.engStep = none) : c.settle = c := by
  unfold Chan.settle
  cases c.tx.length with
  | zero => rfl
  | succ n => rw [Chan.engRun, h]

theorem Chan.settle_nil {c : Chan} (h : c.tx = []) : c.settle = c := by
  unfold Chan.settle
  rw [h]
  rfl

/-- A command whole at the front of the stream is executed first (R70, R88). -/
theorem Chan.settle_cmd {c : Chan} {i : Instr} {r : List Byte} (h : decodeCmd c.tx = .cmd i r) :
    c.settle = (engCmd i { c with tx := r }).settle := by
  apply Chan.settle_step
  simp [Chan.engStep, Chan.engFetch, h]

/-- With steps enough, no whole command is left. -/
theorem Chan.engRun_done (k : Nat) (c : Chan) (h : c.tx.length ≤ k) : (c.engRun k).engStep = none := by
  induction k generalizing c with
  | zero =>
    have : c.tx = [] := List.length_eq_zero_iff.1 (by omega)
    simp [Chan.engRun, Chan.engStep, Chan.engFetch, this, decodeCmd]
  | succ k ih =>
    unfold Chan.engRun
    split
    · rename_i d hd
      have := (Chan.engStep_spec hd).1
      exact ih d (by omega)
    · assumption

theorem Chan.settle_done (c : Chan) : c.settle.engStep = none := c.engRun_done _ (Nat.le_refl _)

/-! ## Transport calls -/

@[simp] theorem Chan.write_sup (bs : List Byte) (c : Chan) : (c.write bs).2.sup = c.sup := by
  unfold Chan.write
  split <;> rfl

@[simp] theorem Chan.takeRx_sup (n : Nat) (c : Chan) : (c.takeRx n).2.sup = c.sup := rfl

@[simp] theorem Chan.readLoop_sup (n : Nat) (ts : List Turn) (acc : List Byte) (c : Chan) :
    (c.readLoop n ts acc).2.sup = c.sup := by
  induction ts generalizing acc c with
  | nil =>
    unfold Chan.readLoop
    dsimp only
    split
    · rfl
    · split <;> rfl
  | cons t ts ih =>
    cases t with
    | answers give =>
      unfold Chan.readLoop
      dsimp only
      split
      · rfl
      · rw [ih]; rfl
    | fails k => rfl

@[simp] theorem Chan.readExact_sup (n : Nat) (c : Chan) : (c.readExact n).2.sup = c.sup := by
  unfold Chan.readExact
  split
  · rfl
  · simp

@[simp] theorem Chan.ask_sup (t : TCall) (c : Chan) : (c.ask t).2.sup = c.sup := by
  unfold Chan.ask
  split <;> simp [Chan.deliverAll]

@[simp] theorem Chan.count_sup (c : Chan) : c.count.2.sup = c.sup := by simp [Chan.count]

theorem Chan.setup_sup (t : TCall) (act : Chan → Chan) (c : Chan) (h : ∀ d : Chan, (act d).sup = d.sup) :
    (c.setup t act).2.sup = c.sup := by
  unfold Chan.setup
  dsimp only
  split <;> simp [h]

@[simp] theorem Chan.setBitMode_sup (mask : Byte) (m : BitMode) (c : Chan) : (c.setBitMode mask m).2.sup = c.sup :=
  Chan.setup_sup _ _ c fun d => d.enterMode_sup _ _

@[simp] theorem Chan.setUsbSizes_sup (i o : Size32) (c : Chan) : (c.setUsbSizes i o).2.sup = c.sup :=
  Chan.setup_sup _ _ c fun _ => rfl

@[simp] theorem Chan.setTimeouts_sup (r w : Nat) (c : Chan) : (c.setTimeouts r w).2.sup = c.sup :=
  Chan.setup_sup _ _ c fun _ => rfl

@[simp] theorem Chan.setLatency_sup (ms : Byte) (c : Chan) : (c.setLatency ms).2.sup = c.sup :=
  Chan.setup_sup _ _ c fun _ => rfl

@[simp] theorem Chan.write_marker (bs : List Byte) (c : Chan) : (c.write bs).2.marker = c.marker := by
  unfold Chan.write
  split <;> rfl

@[simp] theorem Chan.takeRx_marker (n : Nat) (c : Chan) : (c.takeRx n).2.marker = c.marker := rfl

@[simp] theorem Chan.readLoop_marker (n : Nat) (ts : List Turn) (acc : List Byte) (c : Chan) :
    (c.readLoop n ts acc).2.marker = c.marker := by
  induction ts generalizing acc c with
  | nil =>
    unfold Chan.readLoop
    dsimp only
    split
    · rfl
    · split <;> rfl
  | cons t ts ih =>
    cases t with
    | answers give =>
      unfold Chan.readLoop
      dsimp only
      split
      · rfl
      · rw [ih]; rfl
    | fails k => rfl

@[simp] theorem Chan.readExact_marker (n : Nat) (c : Chan) : (c.readExact n).2.marker = c.marker := by
  unfold Chan.readExact
  split
  · rfl
  · simp

@[simp] theorem Chan.ask_marker (t : TCall) (c : Chan) : (c.ask t).2.marker = c.marker := by
  unfold Chan.ask
  split <;> simp [Chan.deliverAll]

@[simp] theorem Chan.count_marker (c : Chan) : c.count.2.marker = c.marker := by simp [Chan.count]

theorem Chan.setup_marker (t : TCall) (act : Chan → Chan) (c : Chan) (h : ∀ d : Chan, (act d).marker = d.marker) :
    (c.setup t act).2.marker = c.marker := by
  unfold Chan.setup
  dsimp only
  split <;> simp [h]

@[simp] theorem Chan.setBitMode_marker (mask : Byte) (m : BitMode) (c : Chan) : (c.setBitMode mask m).2.marker = c.marker :=
  Chan.setup_marker _ _ c fun d => d.enterMode_marker _ _

@[simp] theorem Chan.setUsbSizes_marker (i o : Size32) (c : Chan) : (c.setUsbSizes i o).2.marker = c.marker :=
  Chan.setup_marker _ _ c fun _ => rfl

@[simp] theorem Chan.setTimeouts_marker (r w : Nat) (c : Chan) : (c.setTimeouts r w).2.marker = c.marker :=
  Chan.setup_marker _ _ c fun _ => rfl

@[simp] theorem Chan.setLatency_marker (ms : Byte) (c : Chan) : (c.setLatency ms).2.marker = c.marker :=
  Chan.setup_marker _ _ c fun _ => rfl

/-- Everything a call other than `write` and `read` can do (R60): succeed after a delivery, or fail. -/
theorem Chan.ask_cases (t : TCall) (c : Chan) :
    (∃ n ts, c.ask t = (true, (Chan.deliver n { c with turns := ts }).called t)) ∨
      ∃ k ts, c.turns = .fails k :: ts ∧ c.ask t = (false, { c with turns := ts }.called t) := by
  unfold Chan.ask
  split
  · rename_i h
    exact .inl ⟨(c.inFlight ++ c.eng.gathered).length, [], by rw [← h]; rfl⟩
  · exact .inl ⟨_, _, rfl⟩
  · rename_i k ts h
    exact .inr ⟨k, ts, h, rfl⟩

/-- A delivery loses and reorders nothing (R71). -/
@[simp] theorem Chan.deliver_incoming (n : Nat) (c : Chan) : (c.deliver n).incoming = c.incoming := by
  simp only [Chan.incoming, Chan.deliver_rx, Chan.deliver_inFlight, Chan.deliver_eng, List.append_assoc,
    ← List.drop_append, List.take_append_drop]

/-- When everything has arrived, `RX` is what was incoming. -/
@[simp] theorem Chan.deliverAll_rx (c : Chan) : c.deliverAll.rx = c.incoming := by
  simp [Chan.deliverAll, Chan.incoming]

/-- A call with no turn left succeeds after everything has arrived. -/
theorem Chan.ask_last (t : TCall) (c : Chan) (h : c.turns = []) : c.ask t = (true, c.deliverAll.called t) := by
  simp [Chan.ask, h]

/-- A read with no turn left and enough incoming: those bytes, in one call (R62, R113). -/
theorem Chan.readExact_last (n : Nat) (c : Chan) (hn : 0 < n) (hl : n ≤ c.settle.incoming.length)
    (ha : c.settle.turns = []) :
    c.readExact n = (.ok (c.settle.incoming.take n), (c.settle.deliverAll.takeRx n).2) := by
  have h0 : n ≠ 0 := by omega
  have hs : { c.settle with turns := [] } = c.settle := by rw [← ha]
  have h1 : (c.settle.deliverAll.takeRx n).1 = c.settle.incoming.take n := by
    rw [Chan.takeRx, Chan.deliverAll_rx]
  have h2 : n ≤ (c.settle.incoming.take n).length := by simp [hl]
  simp only [Chan.readExact, if_neg h0, ha, Chan.readLoop, hs, List.length_nil, Nat.sub_zero, List.nil_append, h1,
    if_pos h2]

end Sys2Proof.Machine
end

