-- ==== Sys2Proof/Laws/Memory.lean ====
section
/-! SUPPORT. Laws of the queue buffer: read after write, the canonical form kept, runs of bytes, the flushed region. -/

namespace Sys2Proof.Machine

theorem Memory.read_write_same (m : Memory) (a : Nat) (b : Byte) : (m.write a b).read a = some b := by
  induction m with
  | nil => simp [Memory.write, Memory.read]
  | cons c m ih =>
    obtain ⟨k, x⟩ := c
    unfold Memory.write
    split
    · simp [Memory.read]
    · split
      · simp [Memory.read]
      · rename_i h1 h2
        simp [Memory.read, h2, ih]

theorem Memory.read_write_other (m : Memory) {a x : Nat} (b : Byte) (h : x ≠ a) :
    (m.write a b).read x = m.read x := by
  induction m with
  | nil => simp [Memory.write, Memory.read, h]
  | cons c m ih =>
    obtain ⟨k, y⟩ := c
    unfold Memory.write
    split
    · simp [Memory.read, h]
    · split
      · rename_i h1 h2
        subst h2
        simp [Memory.read, h]
      · simp only [Memory.read]
        split
        · rfl
        · exact ih

/-- Everything a write does to reading. -/
theorem Memory.read_write (m : Memory) (a x : Nat) (b : Byte) :
    (m.write a b).read x = if x = a then some b else m.read x := by
  split
  · rename_i h; subst h; exact m.read_write_same x b
  · rename_i h; exact m.read_write_other b h

theorem Memory.wf_tail {c : Host.Cell} {m : Memory} (h : Memory.wf (c :: m) = true) : Memory.wf m = true := by
  cases m with
  | nil => rfl
  | cons d m => simp only [Memory.wf, Bool.and_eq_true] at h; exact h.2

theorem Memory.wf_cons {c : Host.Cell} {m : Memory} :
    Memory.wf (c :: m) = true ↔ (∀ d ∈ m.head?, c.1 < d.1) ∧ Memory.wf m = true := by
  cases m with
  | nil => simp [Memory.wf]
  | cons d m => simp [Memory.wf]

theorem Memory.head_write (m : Memory) (a : Nat) (b : Byte) {n : Nat} (ha : n < a) (hm : ∀ d ∈ m.head?, n < d.1) :
    ∀ d ∈ (m.write a b).head?, n < d.1 := by
  cases m with
  | nil => simpa [Memory.write] using ha
  | cons c m =>
    obtain ⟨k, x⟩ := c
    unfold Memory.write
    split
    · simpa using ha
    · split
      · simpa using ha
      · simpa using hm

/-- A write keeps the canonical form. -/
theorem Memory.write_wf (m : Memory) (a : Nat) (b : Byte) (h : m.wf = true) : (m.write a b).wf = true := by
  induction m with
  | nil => rfl
  | cons c m ih =>
    obtain ⟨k, x⟩ := c
    unfold Memory.write
    split
    · exact Memory.wf_cons.2 ⟨by simpa using ‹a < k›, h⟩
    · split
      · rename_i h1 h2
        subst h2
        exact Memory.wf_cons.2 ⟨(Memory.wf_cons.1 h).1, Memory.wf_tail h⟩
      · rename_i h1 h2
        exact Memory.wf_cons.2
          ⟨Memory.head_write m a b (by simpa using Nat.lt_of_le_of_ne (Nat.le_of_not_lt h1) (Ne.symm h2))
            (Memory.wf_cons.1 h).1, ih (Memory.wf_tail h)⟩

/-- A run of writes keeps the canonical form. -/
theorem Memory.writeList_wf (m : Memory) (a : Nat) (bs : List Byte) (h : m.wf = true) :
    (m.writeList a bs).wf = true := by
  induction bs generalizing m a with
  | nil => exact h
  | cons b bs ih => exact ih (m.write a b) (a + 1) (m.write_wf a b h)

theorem Memory.writeList_append (m : Memory) (a : Nat) (xs ys : List Byte) :
    m.writeList a (xs ++ ys) = (m.writeList a xs).writeList (a + xs.length) ys := by
  induction xs generalizing m a with
  | nil => rfl
  | cons x xs ih =>
    simp only [List.cons_append, Memory.writeList, List.length_cons]
    rw [ih, Nat.add_assoc, Nat.add_comm 1]

/-- Everything a run of writes does to reading: the stored bytes inside, nothing outside. -/
theorem Memory.read_writeList (m : Memory) (a x : Nat) (bs : List Byte) :
    (m.writeList a bs).read x = if a ≤ x ∧ x < a + bs.length then bs[x - a]? else m.read x := by
  induction bs generalizing m a with
  | nil => simp [Memory.writeList]
  | cons b bs ih =>
    rw [Memory.writeList, ih, Memory.read_write, List.length_cons]
    by_cases hx : x = a
    · subst hx; simp
    · by_cases h : a + 1 ≤ x ∧ x < a + 1 + bs.length
      · rw [if_pos h, if_pos (by omega), show x - a = x - (a + 1) + 1 by omega, List.getElem?_cons_succ]
      · rw [if_neg h, if_neg hx, if_neg (by omega)]

/-- A write lists no address but its own and those listed before. -/
theorem Memory.mem_write {m : Memory} {a : Nat} {b : Byte} {c : Host.Cell} (h : c ∈ m.write a b) :
    c = (a, b) ∨ c ∈ m := by
  induction m with
  | nil => simpa [Memory.write] using h
  | cons d m ih =>
    obtain ⟨k, x⟩ := d
    unfold Memory.write at h
    split at h
    · simpa using h
    · split at h
      · rcases List.mem_cons.1 h with h | h
        · exact .inl h
        · exact .inr (List.mem_cons_of_mem _ h)
      · rcases List.mem_cons.1 h with h | h
        · exact .inr (h ▸ List.mem_cons_self)
        · exact (ih h).imp id (List.mem_cons_of_mem _)

theorem Memory.mem_writeList {m : Memory} {a : Nat} {bs : List Byte} {c : Host.Cell} (h : c ∈ m.writeList a bs) :
    (a ≤ c.1 ∧ c.1 < a + bs.length) ∨ c ∈ m := by
  induction bs generalizing m a with
  | nil => exact .inr h
  | cons b bs ih =>
    rcases ih h with h | h
    · exact .inl ⟨by omega, by simp only [List.length_cons]; omega⟩
    · rcases Memory.mem_write h with h | h
      · subst h; exact .inl ⟨Nat.le_refl a, by simp⟩
      · exact .inr h

/-- The region of an empty queue's bytes is those bytes (R51, R112). -/
theorem Memory.region_writeList (m : Memory) (bs : List Byte) : (m.writeList 0 bs).region bs.length = bs := by
  apply List.ext_getElem?
  intro i
  simp only [Memory.region, List.getElem?_map]
  by_cases h : i < bs.length
  · simp [Memory.byteAt, Memory.read_writeList, h]
  · simp [h]

end Sys2Proof.Machine
end

