-- ==== Sys2Proof/Laws/Ops.lean ====
section
/-! SUPPORT. One lemma for each shared operation that says what it does: emits, flush, reads, counts, setup calls, pin
sets, fault entry, and how a host operation ends. -/

namespace Sys2Proof.Machine

variable {α β : Type} {s t : State}

@[simp] theorem Res.ok_bind (a : α) (s : State) (f : α → State → Res β) : (Res.ok a s).bind f = f a s := rfl

@[simp] theorem Res.raised_bind (c : FaultCode) (i : Detail) (s : State) (f : α → State → Res β) :
    (Res.raised c i s).bind f = .raised c i s := rfl

@[simp] theorem Res.held_bind (h : Fault) (f : α → State → Res β) : (Res.held h).bind f = .held h := rfl

/-- A step after which the operation goes on had a value. -/
theorem Res.bind_ok {r : Res α} {f : α → State → Res β} {b : β} (h : r.bind f = .ok b t) :
    ∃ a u, r = .ok a u ∧ f a u = .ok b t := by
  cases r with
  | ok a u => exact ⟨a, u, rfl, h⟩
  | raised c i u => simp at h
  | held g => simp at h

/-! ## Emits -/

theorem State.fits_iff (s : State) (bs : List Byte) : s.fits bs = true ↔ s.qcur + bs.length ≤ s.par.qcap := by
  simp [State.fits]

/-- What `emit` can do: append the whole, or raise and leave the state as it was. -/
theorem emit_cases (bs : List Byte) (s : State) :
    (s.qcur + bs.length ≤ s.par.qcap ∧ emit bs s = .ok () (s.append bs)) ∨
      (s.par.qcap < s.qcur + bs.length ∧ emit bs s = .raised .sizing (s.overflow bs) s) := by
  unfold emit
  by_cases h : s.qcur + bs.length ≤ s.par.qcap
  · exact .inl ⟨h, if_pos ((s.fits_iff bs).2 h)⟩
  · exact .inr ⟨Nat.lt_of_not_le h, if_neg fun k => h ((s.fits_iff bs).1 k)⟩

theorem emit_ok (bs : List Byte) (s : State) (h : s.qcur + bs.length ≤ s.par.qcap) :
    emit bs s = .ok () (s.append bs) := if_pos ((s.fits_iff bs).2 h)

theorem State.append_append (s : State) (xs ys : List Byte) : (s.append xs).append ys = s.append (xs ++ ys) := by
  simp [State.append, Memory.writeList_append, Nat.add_assoc]

@[simp] theorem State.append_nil (s : State) : s.append [] = s := rfl

/-- Emits that fit together append their concatenation (R51). -/
theorem emitAll_ok (l : List (List Byte)) (s : State) (h : s.qcur + l.flatten.length ≤ s.par.qcap) :
    emitAll l s = .ok () (s.append l.flatten) := by
  induction l generalizing s with
  | nil => rfl
  | cons bs l ih =>
    simp only [List.flatten_cons, List.length_append] at h
    rw [emitAll, emit_ok bs s (by omega), Res.ok_bind, ih (s.append bs) (by rw [State.append_qcur, State.append_par]; omega), State.append_append,
      List.flatten_cons]

/-! ## Flush and the transport -/

/-- What a `write` can do. -/
theorem Chan.write_ok (c : Chan) (bs : List Byte) (h : c.accepts = true) : (c.write bs).1 = true := by
  unfold Chan.accepts at h
  unfold Chan.write
  split <;> simp_all

theorem flush_empty (s : State) (h : s.qcur = 0) : flush s = .ok () s := if_pos h

/-- A flush of what was buffered in an empty queue sends exactly that (R51, R112). -/
theorem flush_append (s : State) (bs : List Byte) (hq : s.qcur = 0) (hb : bs ≠ []) (ha : s.chan.accepts = true) :
    flush (s.append bs) = .ok () (s.sent bs) := by
  have hl : (s.append bs).qcur ≠ 0 := by
    simp [hq, List.length_eq_zero_iff, hb]
  have hr : (s.append bs).qbuf.region (s.append bs).qcur = bs := by
    simp [hq, Memory.region_writeList]
  unfold flush
  simp only [if_neg hl, hr, State.append_chan, s.chan.write_ok bs ha, if_true]
  simp [State.append, State.sent, hq]

/-- A flush of what was buffered in an empty queue, when the transport fails: the bytes taken are downstream, the queue
is empty (R112, R291). -/
theorem flush_append_fails (s : State) (bs : List Byte) (hq : s.qcur = 0) (hb : bs ≠ []) (ha : s.chan.accepts = false) :
    flush (s.append bs) = .raised .transport .write (s.sent bs) := by
  have hl : (s.append bs).qcur ≠ 0 := by
    simp [hq, List.length_eq_zero_iff, hb]
  have hr : (s.append bs).qbuf.region (s.append bs).qcur = bs := by
    simp [hq, Memory.region_writeList]
  have hw : (s.chan.write bs).1 = false := by
    unfold Chan.accepts at ha
    unfold Chan.write
    split <;> simp_all
  unfold flush
  simp only [if_neg hl, hr, State.append_chan, hw, if_neg Bool.false_ne_true]
  simp [State.append, State.sent, hq]

/-- What a flush can do: nothing, or one write after which the queue is empty. -/
theorem flush_cases (s : State) :
    (s.qcur = 0 ∧ flush s = .ok () s) ∨
      (s.qcur ≠ 0 ∧
        ((s.chan.write (s.qbuf.region s.qcur)).1 = true
            ∧ flush s = .ok () { s with qcur := 0, chan := (s.chan.write (s.qbuf.region s.qcur)).2 } ∨
          (s.chan.write (s.qbuf.region s.qcur)).1 = false
            ∧ flush s =
              .raised .transport .write { s with qcur := 0, chan := (s.chan.write (s.qbuf.region s.qcur)).2 })) := by
  by_cases h : s.qcur = 0
  · exact .inl ⟨h, if_pos h⟩
  · refine .inr ⟨h, ?_⟩
    unfold flush
    rw [if_neg h]
    cases hw : (s.chan.write (s.qbuf.region s.qcur)).1
    · exact .inr ⟨rfl, by simp [hw]⟩
    · exact .inl ⟨rfl, by simp [hw]⟩

/-- Buffering and flushing a list of emits from an empty queue sends their concatenation (R51, R70). -/
theorem emitAll_flush (l : List (List Byte)) (s : State) (hq : s.qcur = 0) (hb : l.flatten ≠ [])
    (hf : l.flatten.length ≤ s.par.qcap) (ha : s.chan.accepts = true) :
    ((emitAll l s).bind fun _ t => flush t) = .ok () (s.sent l.flatten) := by
  rw [emitAll_ok l s (by omega), Res.ok_bind, flush_append s _ hq hb ha]

/-- A read that the channel answers. -/
theorem readExact_ok (n : Nat) (s : State) {bs : List Byte} {c : Chan} (h : s.chan.readExact n = (.ok bs, c)) :
    readExact n s = .ok bs (s.withChan c) := by simp [readExact, h]

/-- A read that fails or times out. -/
theorem readExact_raised (n : Nat) (s : State) {got : Nat} {c : Chan} (h : s.chan.readExact n = (.error got, c)) :
    readExact n s = .raised .transport (.read got) (s.withChan c) := by simp [readExact, h]

/-- What a read can do. -/
theorem readExact_cases (n : Nat) (s : State) :
    (∃ bs c, s.chan.readExact n = (.ok bs, c) ∧ readExact n s = .ok bs (s.withChan c)) ∨
      (∃ got c, s.chan.readExact n = (.error got, c) ∧ readExact n s = .raised .transport (.read got) (s.withChan c)) := by
  rcases h : s.chan.readExact n with ⟨r, c⟩
  cases r with
  | ok bs => exact .inl ⟨bs, c, rfl, readExact_ok n s h⟩
  | error got => exact .inr ⟨got, c, rfl, readExact_raised n s h⟩

/-- What a count can do. -/
theorem count_cases (s : State) :
    (∃ n c, s.chan.count = (some n, c) ∧ count s = .ok n (s.withChan c)) ∨
      (∃ c, s.chan.count = (none, c) ∧ count s = .raised .transport .count (s.withChan c)) := by
  rcases h : s.chan.count with ⟨r, c⟩
  cases r with
  | some n => exact .inl ⟨n, c, rfl, by simp [count, h]⟩
  | none => exact .inr ⟨c, rfl, by simp [count, h]⟩

/-- What a setup call can do. -/
theorem setupCall_cases (f : Chan → Bool × Chan) (i : Detail) (s : State) :
    ((f s.chan).1 = true ∧ setupCall f i s = .ok () (s.withChan (f s.chan).2)) ∨
      ((f s.chan).1 = false ∧ setupCall f i s = .raised .transport i (s.withChan (f s.chan).2)) := by
  cases h : (f s.chan).1
  · exact .inr ⟨rfl, by simp [setupCall, h]⟩
  · exact .inl ⟨rfl, by simp [setupCall, h]⟩

/-! ## Pin sets -/

theorem setl_ok (v d : Byte) (s : State) (h : s.qcur + 3 ≤ s.par.qcap) :
    setl v d s = .ok () { s.append (setLowBytes v d) with plVal := v, plDir := d } := by
  rw [setl, emit_ok _ s (by simpa [setLowBytes] using h), Res.ok_bind]

/-! ## How a host operation ends -/

variable (op : HostOp) (pre : State → Option (FaultCode × Detail)) (body : State → Res α) (give : α → Answer)

/-- A failed check: only the log and the answer change (R296). -/
theorem runOp_early (s : State) {c : FaultCode} {i : Detail} (h : pre s = some (c, i)) :
    runOp op pre body give s = .next (s.logged c op i) := by
  simp [runOp, h, takeFault, faultEarly, State.logged]

theorem runOp_ok (s : State) {a : α} {t : State} (h : pre s = none) (hb : body s = .ok a t) :
    runOp op pre body give s = .next (t.answering (give a)) := by
  simp [runOp, h, hb, State.answering]

theorem runOp_raised (s : State) {c : FaultCode} {i : Detail} {t : State} (h : pre s = none)
    (hb : body s = .raised c i t) : runOp op pre body give s = .next (faultLate (opIsOpen op) op c i t) := by
  simp [runOp, h, hb, takeFault]

/-- Everything a host operation can do. -/
theorem runOp_cases (s t : State) (h : runOp op pre body give s = .next t) :
    (∃ c i, pre s = some (c, i) ∧ t = s.logged c op i) ∨
      (pre s = none ∧ ∃ a u, body s = .ok a u ∧ t = u.answering (give a)) ∨
      (pre s = none ∧ ∃ c i u, body s = .raised c i u ∧ t = faultLate (opIsOpen op) op c i u) := by
  unfold runOp at h
  split at h
  · rename_i f hf
    refine .inl ⟨f.1, f.2, hf, ?_⟩
    simpa [takeFault, faultEarly, State.logged] using h.symm
  · rename_i hn
    split at h
    · rename_i a u hb
      exact .inr (.inl ⟨hn, a, u, hb, by simpa [State.answering] using h.symm⟩)
    · rename_i c i u hb
      exact .inr (.inr ⟨hn, c, i, u, hb, by simpa [takeFault] using h.symm⟩)
    · cases h

/-! ## Checks -/

@[simp] theorem orElse_none (b : Option (FaultCode × Detail)) : orElse none b = b := rfl

@[simp] theorem orElse_some (f : FaultCode × Detail) (b : Option (FaultCode × Detail)) : orElse (some f) b = some f := rfl

theorem orElse_eq_none {a b : Option (FaultCode × Detail)} : orElse a b = none ↔ a = none ∧ b = none := by
  cases a <;> simp

@[simp] theorem check_true (c : FaultCode) (i : Detail) : check true c i = none := rfl

@[simp] theorem check_false (c : FaultCode) (i : Detail) : check false c i = some (c, i) := rfl

theorem check_eq_none {b : Bool} {c : FaultCode} {i : Detail} : check b c i = none ↔ b = true := by
  cases b <;> simp

@[simp] theorem atLeastOne_eq_none {n : Nat} : atLeastOne n = none ↔ 1 ≤ n := by
  unfold atLeastOne
  split <;> simp <;> omega

@[simp] theorem atMost_eq_none {n bound : Nat} : atMost n bound = none ↔ n ≤ bound := by
  unfold atMost
  split <;> simp <;> omega

@[simp] theorem exactly_eq_none {n len : Nat} : exactly n len = none ↔ len = n := by
  unfold exactly
  split <;> simp_all

@[simp] theorem sized_eq_none {info : Nat → Nat → Detail} {m : Option (Nat × Nat)} : sized info m = none ↔ m = none := by
  cases m <;> simp [sized]

/-- A transfer's sizes fit exactly as R152 and R168 ask. -/
theorem transferMisfit_eq_none {par : Config.Params} {n bytes : Nat} {out : List Byte} :
    transferMisfit par n bytes out = none ↔ 1 ≤ n ∧ out.length = ceil8 n ∧ bytes ≤ par.maxBlock := by
  simp [transferMisfit, Option.or_eq_none_iff]

theorem needOpen_eq_none {s : State} : needOpen s = none ↔ s.ch = .opened := by
  simp [needOpen, check_eq_none]

theorem needProto_eq_none {p : Proto} {s : State} : needProto p s = none ↔ s.ch = .opened ∧ s.proto = p := by
  simp [needProto, orElse_eq_none, needOpen_eq_none, check_eq_none]

end Sys2Proof.Machine
end

