-- ==== Sys2Proof/Laws/Open.lean ====
section
/-! SUPPORT. What the capability queries of an open can do, and how an open ends. -/

namespace Sys2Proof.Machine

/-- Everything the capability queries can do (R60, R211): answer, or fail as a transport fault; only the channel changes,
and its capabilities do not. -/
theorem queryCaps_cases (s : State) :
    (∃ c, queryCaps s = .ok () (s.withChan c) ∧ c.sup = s.chan.sup) ∨
      ∃ i c, queryCaps s = .raised .transport i (s.withChan c) ∧ c.sup = s.chan.sup := by
  unfold queryCaps
  rcases setupCall_cases (Chan.ask .supportsMpsse) .supportsMpsse s with ⟨_, h1⟩ | ⟨_, h1⟩ <;> rw [h1]
  · rw [Res.ok_bind]
    rcases setupCall_cases (Chan.ask .supportsEnhanced) .supportsEnhanced
      (s.withChan (s.chan.ask .supportsMpsse).2) with ⟨_, h2⟩ | ⟨_, h2⟩ <;> rw [h2]
    · rw [Res.ok_bind]
      rcases setupCall_cases (Chan.ask .supportsOpenDrain) .supportsOpenDrain
        ((s.withChan (s.chan.ask .supportsMpsse).2).withChan
          ((s.withChan (s.chan.ask .supportsMpsse).2).chan.ask .supportsEnhanced).2) with ⟨_, h3⟩ | ⟨_, h3⟩ <;> rw [h3]
      · exact .inl ⟨_, rfl, by simp⟩
      · exact .inr ⟨_, _, rfl, by simp⟩
    · exact .inr ⟨_, _, rfl, by simp⟩
  · exact .inr ⟨_, _, rfl, by simp⟩

/-- Everything an open can do (R206, R210): refuse a channel that is not closed; take the fault of a failed query, with
`CH` as it was; or run its checks and its body after the queries. -/
theorem runOpen_cases {α : Type} (op : HostOp) (pre : State → Option (FaultCode × Detail)) (body : State → Res α)
    (give : α → Answer) (s t : State) (h : runOpen op pre body give s = .next t) :
    (s.ch ≠ .closed ∧ t = s.logged .configuration op (.reason .alreadyOpenOrDead)) ∨
      (s.ch = .closed ∧
        ((∃ c, c.sup = s.chan.sup ∧ runOp op pre body give (s.withChan c) = .next t) ∨
          ∃ i c, c.sup = s.chan.sup ∧ t = faultLate false op .transport i (s.withChan c))) := by
  unfold runOpen at h
  by_cases hc : s.ch = .closed
  · have hn : needClosed s = none := by simp [needClosed, hc]
    refine .inr ⟨hc, ?_⟩
    rcases queryCaps_cases s with ⟨c, hq, hs⟩ | ⟨i, c, hq, hs⟩
    · exact .inl ⟨c, hs, by simpa [hn, hq] using h⟩
    · exact .inr ⟨i, c, hs, by simpa [hn, hq, takeFault] using h.symm⟩
  · have hn : needClosed s = some (.configuration, .reason .alreadyOpenOrDead) := by simp [needClosed, check, hc]
    exact .inl ⟨hc, by simpa [hn, takeFault, faultEarly, State.logged] using h.symm⟩

end Sys2Proof.Machine
end

