-- ==== Sys2Proof/Laws/PerInstr.lean ====
section
/-! SUPPORT. One lemma for each constructor of `Instr`: its encoding begins with the byte the spec's tables give its row
(spec/30_encoding.md R93, R98), and a Level M command has the length of its format (R81). The two tables are written out
here once more, apart from the encoder. -/

namespace Sys2Proof.Laws.Shape

/-- The first byte of each row: the opcode (R93) or the `OPSEL` (R98). -/
def lead : Instr → Byte
  | .outBytesWpMsb .. => 0x10
  | .outBytesWnMsb .. => 0x11
  | .outBytesWpLsb .. => 0x18
  | .outBytesWnLsb .. => 0x19
  | .outBitsWpMsb .. => 0x12
  | .outBitsWnMsb .. => 0x13
  | .outBitsWpLsb .. => 0x1A
  | .outBitsWnLsb .. => 0x1B
  | .inBytesRpMsb .. => 0x20
  | .inBytesRnMsb .. => 0x24
  | .inBytesRpLsb .. => 0x28
  | .inBytesRnLsb .. => 0x2C
  | .inBitsRpMsb .. => 0x22
  | .inBitsRnMsb .. => 0x26
  | .inBitsRpLsb .. => 0x2A
  | .inBitsRnLsb .. => 0x2E
  | .ioBytesWnRpMsb .. => 0x31
  | .ioBytesWpRnMsb .. => 0x34
  | .ioBytesWnRpLsb .. => 0x39
  | .ioBytesWpRnLsb .. => 0x3C
  | .ioBitsWnRpMsb .. => 0x33
  | .ioBitsWpRnMsb .. => 0x36
  | .ioBitsWnRpLsb .. => 0x3B
  | .ioBitsWpRnLsb .. => 0x3E
  | .tmsWp .. => 0x4A
  | .tmsWn .. => 0x4B
  | .tmsrWpRp .. => 0x6A
  | .tmsrWnRp .. => 0x6B
  | .tmsrWpRn .. => 0x6E
  | .tmsrWnRn .. => 0x6F
  | .setLow .. => 0x80
  | .getLow => 0x81
  | .setHigh .. => 0x82
  | .getHigh => 0x83
  | .loopOn => 0x84
  | .loopOff => 0x85
  | .setDiv .. => 0x86
  | .sendImm => 0x87
  | .div5Off => 0x8A
  | .div5On => 0x8B
  | .ph3On => 0x8C
  | .ph3Off => 0x8D
  | .adaptOn => 0x96
  | .adaptOff => 0x97
  | .odCfg .. => 0x9E
  | .bogus => 0xAA
  | .qEnq .. => 0x00
  | .qEnqs .. => 0x01
  | .qFlush => 0x02
  | .qRead .. => 0x03
  | .qCount => 0x04
  | .clkConfigure .. => 0x10
  | .tapNext .. => 0x20
  | .tapPath .. => 0x21
  | .tapGoto .. => 0x22
  | .jtagReset => 0x30
  | .jtagScanIr .. => 0x31
  | .jtagScanDr .. => 0x32
  | .jtagSetEndIr .. => 0x33
  | .jtagSetEndDr .. => 0x34
  | .spiAssert => 0x40
  | .spiClear => 0x41
  | .spiTransact .. => 0x42
  | .spiWrite .. => 0x43
  | .spiRead .. => 0x44
  | .i2cStart => 0x50
  | .i2cRstart => 0x51
  | .i2cStop => 0x52
  | .i2cWriteByte .. => 0x53
  | .i2cReadByte .. => 0x54
  | .i2cXread .. => 0x55
  | .i2cXwrite .. => 0x56
  | .mpsseSync => 0x60
  | .jtagOpen .. => 0x61
  | .spiOpen .. => 0x62
  | .i2cOpen .. => 0x63
  | .close => 0x64
  | .mpsseEmit .. => 0x70

/-- The length of a Level M command (R81); 0 for a host operation, which has no length there. -/
def size : Instr → Nat
  | .outBytesWpMsb d => d.length + 3
  | .outBytesWnMsb d => d.length + 3
  | .outBytesWpLsb d => d.length + 3
  | .outBytesWnLsb d => d.length + 3
  | .outBitsWpMsb _ _ => 3
  | .outBitsWnMsb _ _ => 3
  | .outBitsWpLsb _ _ => 3
  | .outBitsWnLsb _ _ => 3
  | .inBytesRpMsb _ => 3
  | .inBytesRnMsb _ => 3
  | .inBytesRpLsb _ => 3
  | .inBytesRnLsb _ => 3
  | .inBitsRpMsb _ => 2
  | .inBitsRnMsb _ => 2
  | .inBitsRpLsb _ => 2
  | .inBitsRnLsb _ => 2
  | .ioBytesWnRpMsb d => d.length + 3
  | .ioBytesWpRnMsb d => d.length + 3
  | .ioBytesWnRpLsb d => d.length + 3
  | .ioBytesWpRnLsb d => d.length + 3
  | .ioBitsWnRpMsb _ _ => 3
  | .ioBitsWpRnMsb _ _ => 3
  | .ioBitsWnRpLsb _ _ => 3
  | .ioBitsWpRnLsb _ _ => 3
  | .tmsWp _ _ => 3
  | .tmsWn _ _ => 3
  | .tmsrWpRp _ _ => 3
  | .tmsrWnRp _ _ => 3
  | .tmsrWpRn _ _ => 3
  | .tmsrWnRn _ _ => 3
  | .setLow _ _ => 3
  | .getLow => 1
  | .setHigh _ _ => 3
  | .getHigh => 1
  | .loopOn => 1
  | .loopOff => 1
  | .setDiv _ => 3
  | .sendImm => 1
  | .div5Off => 1
  | .div5On => 1
  | .ph3On => 1
  | .ph3Off => 1
  | .adaptOn => 1
  | .adaptOff => 1
  | .odCfg _ _ => 3
  | .bogus => 1
  | .qEnq .. => 0
  | .qEnqs .. => 0
  | .qFlush => 0
  | .qRead .. => 0
  | .qCount => 0
  | .clkConfigure .. => 0
  | .tapNext .. => 0
  | .tapPath .. => 0
  | .tapGoto .. => 0
  | .jtagReset => 0
  | .jtagScanIr .. => 0
  | .jtagScanDr .. => 0
  | .jtagSetEndIr .. => 0
  | .jtagSetEndDr .. => 0
  | .spiAssert => 0
  | .spiClear => 0
  | .spiTransact .. => 0
  | .spiWrite .. => 0
  | .spiRead .. => 0
  | .i2cStart => 0
  | .i2cRstart => 0
  | .i2cStop => 0
  | .i2cWriteByte .. => 0
  | .i2cReadByte .. => 0
  | .i2cXread .. => 0
  | .i2cXwrite .. => 0
  | .mpsseSync => 0
  | .jtagOpen .. => 0
  | .spiOpen .. => 0
  | .i2cOpen .. => 0
  | .close => 0
  | .mpsseEmit .. => 0

/-- The encoding begins with the row's byte, and a command has its format's length. -/
def Statement (i : Instr) : Prop :=
  (encode i).head? = some (lead i) ∧ (i.level = .m → (encode i).length = size i)

theorem outBytesWpMsb (d : List Byte) : Statement (.outBytesWpMsb d) := ⟨rfl, fun _ => rfl⟩

theorem outBytesWnMsb (d : List Byte) : Statement (.outBytesWnMsb d) := ⟨rfl, fun _ => rfl⟩

theorem outBytesWpLsb (d : List Byte) : Statement (.outBytesWpLsb d) := ⟨rfl, fun _ => rfl⟩

theorem outBytesWnLsb (d : List Byte) : Statement (.outBytesWnLsb d) := ⟨rfl, fun _ => rfl⟩

theorem outBitsWpMsb (k : Nat) (d : Byte) : Statement (.outBitsWpMsb k d) := ⟨rfl, fun _ => rfl⟩

theorem outBitsWnMsb (k : Nat) (d : Byte) : Statement (.outBitsWnMsb k d) := ⟨rfl, fun _ => rfl⟩

theorem outBitsWpLsb (k : Nat) (d : Byte) : Statement (.outBitsWpLsb k d) := ⟨rfl, fun _ => rfl⟩

theorem outBitsWnLsb (k : Nat) (d : Byte) : Statement (.outBitsWnLsb k d) := ⟨rfl, fun _ => rfl⟩

theorem inBytesRpMsb (n : Nat) : Statement (.inBytesRpMsb n) := ⟨rfl, fun _ => rfl⟩

theorem inBytesRnMsb (n : Nat) : Statement (.inBytesRnMsb n) := ⟨rfl, fun _ => rfl⟩

theorem inBytesRpLsb (n : Nat) : Statement (.inBytesRpLsb n) := ⟨rfl, fun _ => rfl⟩

theorem inBytesRnLsb (n : Nat) : Statement (.inBytesRnLsb n) := ⟨rfl, fun _ => rfl⟩

theorem inBitsRpMsb (k : Nat) : Statement (.inBitsRpMsb k) := ⟨rfl, fun _ => rfl⟩

theorem inBitsRnMsb (k : Nat) : Statement (.inBitsRnMsb k) := ⟨rfl, fun _ => rfl⟩

theorem inBitsRpLsb (k : Nat) : Statement (.inBitsRpLsb k) := ⟨rfl, fun _ => rfl⟩

theorem inBitsRnLsb (k : Nat) : Statement (.inBitsRnLsb k) := ⟨rfl, fun _ => rfl⟩

theorem ioBytesWnRpMsb (d : List Byte) : Statement (.ioBytesWnRpMsb d) := ⟨rfl, fun _ => rfl⟩

theorem ioBytesWpRnMsb (d : List Byte) : Statement (.ioBytesWpRnMsb d) := ⟨rfl, fun _ => rfl⟩

theorem ioBytesWnRpLsb (d : List Byte) : Statement (.ioBytesWnRpLsb d) := ⟨rfl, fun _ => rfl⟩

theorem ioBytesWpRnLsb (d : List Byte) : Statement (.ioBytesWpRnLsb d) := ⟨rfl, fun _ => rfl⟩

theorem ioBitsWnRpMsb (k : Nat) (d : Byte) : Statement (.ioBitsWnRpMsb k d) := ⟨rfl, fun _ => rfl⟩

theorem ioBitsWpRnMsb (k : Nat) (d : Byte) : Statement (.ioBitsWpRnMsb k d) := ⟨rfl, fun _ => rfl⟩

theorem ioBitsWnRpLsb (k : Nat) (d : Byte) : Statement (.ioBitsWnRpLsb k d) := ⟨rfl, fun _ => rfl⟩

theorem ioBitsWpRnLsb (k : Nat) (d : Byte) : Statement (.ioBitsWpRnLsb k d) := ⟨rfl, fun _ => rfl⟩

theorem tmsWp (m : Nat) (d : Byte) : Statement (.tmsWp m d) := ⟨rfl, fun _ => rfl⟩

theorem tmsWn (m : Nat) (d : Byte) : Statement (.tmsWn m d) := ⟨rfl, fun _ => rfl⟩

theorem tmsrWpRp (m : Nat) (d : Byte) : Statement (.tmsrWpRp m d) := ⟨rfl, fun _ => rfl⟩

theorem tmsrWnRp (m : Nat) (d : Byte) : Statement (.tmsrWnRp m d) := ⟨rfl, fun _ => rfl⟩

theorem tmsrWpRn (m : Nat) (d : Byte) : Statement (.tmsrWpRn m d) := ⟨rfl, fun _ => rfl⟩

theorem tmsrWnRn (m : Nat) (d : Byte) : Statement (.tmsrWnRn m d) := ⟨rfl, fun _ => rfl⟩

theorem setLow (val dir : Byte) : Statement (.setLow val dir) := ⟨rfl, fun _ => rfl⟩

theorem getLow : Statement .getLow := ⟨rfl, fun _ => rfl⟩

theorem setHigh (val dir : Byte) : Statement (.setHigh val dir) := ⟨rfl, fun _ => rfl⟩

theorem getHigh : Statement .getHigh := ⟨rfl, fun _ => rfl⟩

theorem loopOn : Statement .loopOn := ⟨rfl, fun _ => rfl⟩

theorem loopOff : Statement .loopOff := ⟨rfl, fun _ => rfl⟩

theorem setDiv (d : Divisor) : Statement (.setDiv d) := ⟨rfl, fun _ => rfl⟩

theorem sendImm : Statement .sendImm := ⟨rfl, fun _ => rfl⟩

theorem div5Off : Statement .div5Off := ⟨rfl, fun _ => rfl⟩

theorem div5On : Statement .div5On := ⟨rfl, fun _ => rfl⟩

theorem ph3On : Statement .ph3On := ⟨rfl, fun _ => rfl⟩

theorem ph3Off : Statement .ph3Off := ⟨rfl, fun _ => rfl⟩

theorem adaptOn : Statement .adaptOn := ⟨rfl, fun _ => rfl⟩

theorem adaptOff : Statement .adaptOff := ⟨rfl, fun _ => rfl⟩

theorem odCfg (maskL maskH : Byte) : Statement (.odCfg maskL maskH) := ⟨rfl, fun _ => rfl⟩

theorem bogus : Statement .bogus := ⟨rfl, fun _ => rfl⟩

theorem qEnq (b : Byte) : Statement (.qEnq b) := ⟨rfl, fun h => nomatch h⟩

theorem qEnqs (bs : List Byte) : Statement (.qEnqs bs) := ⟨rfl, fun h => nomatch h⟩

theorem qFlush : Statement .qFlush := ⟨rfl, fun h => nomatch h⟩

theorem qRead (n : Nat) : Statement (.qRead n) := ⟨rfl, fun h => nomatch h⟩

theorem qCount : Statement .qCount := ⟨rfl, fun h => nomatch h⟩

theorem clkConfigure (hz : Hertz) : Statement (.clkConfigure hz) := ⟨rfl, fun h => nomatch h⟩

theorem tapNext (t : Tap) (b : Bool) : Statement (.tapNext t b) := ⟨rfl, fun h => nomatch h⟩

theorem tapPath (src dst : Tap) : Statement (.tapPath src dst) := ⟨rfl, fun h => nomatch h⟩

theorem tapGoto (dst : Tap) : Statement (.tapGoto dst) := ⟨rfl, fun h => nomatch h⟩

theorem jtagReset : Statement .jtagReset := ⟨rfl, fun h => nomatch h⟩

theorem jtagScanIr (n : Nat) (out : List Byte) : Statement (.jtagScanIr n out) := ⟨rfl, fun h => nomatch h⟩

theorem jtagScanDr (n : Nat) (out : List Byte) : Statement (.jtagScanDr n out) := ⟨rfl, fun h => nomatch h⟩

theorem jtagSetEndIr (t : Tap) : Statement (.jtagSetEndIr t) := ⟨rfl, fun h => nomatch h⟩

theorem jtagSetEndDr (t : Tap) : Statement (.jtagSetEndDr t) := ⟨rfl, fun h => nomatch h⟩

theorem spiAssert : Statement .spiAssert := ⟨rfl, fun h => nomatch h⟩

theorem spiClear : Statement .spiClear := ⟨rfl, fun h => nomatch h⟩

theorem spiTransact (n : Nat) (out : List Byte) : Statement (.spiTransact n out) := ⟨rfl, fun h => nomatch h⟩

theorem spiWrite (n : Nat) (out : List Byte) : Statement (.spiWrite n out) := ⟨rfl, fun h => nomatch h⟩

theorem spiRead (n : Nat) : Statement (.spiRead n) := ⟨rfl, fun h => nomatch h⟩

theorem i2cStart : Statement .i2cStart := ⟨rfl, fun h => nomatch h⟩

theorem i2cRstart : Statement .i2cRstart := ⟨rfl, fun h => nomatch h⟩

theorem i2cStop : Statement .i2cStop := ⟨rfl, fun h => nomatch h⟩

theorem i2cWriteByte (v : Byte) : Statement (.i2cWriteByte v) := ⟨rfl, fun h => nomatch h⟩

theorem i2cReadByte (ack : Bool) : Statement (.i2cReadByte ack) := ⟨rfl, fun h => nomatch h⟩

theorem i2cXread (addr : Byte) (count : Nat) : Statement (.i2cXread addr count) := ⟨rfl, fun h => nomatch h⟩

theorem i2cXwrite (addr : Byte) (data : List Byte) : Statement (.i2cXwrite addr data) := ⟨rfl, fun h => nomatch h⟩

theorem mpsseSync : Statement .mpsseSync := ⟨rfl, fun h => nomatch h⟩

theorem jtagOpen (hz : Hertz) : Statement (.jtagOpen hz) := ⟨rfl, fun h => nomatch h⟩

theorem spiOpen (hz : Hertz) : Statement (.spiOpen hz) := ⟨rfl, fun h => nomatch h⟩

theorem i2cOpen (hz : Hertz) : Statement (.i2cOpen hz) := ⟨rfl, fun h => nomatch h⟩

theorem close : Statement .close := ⟨rfl, fun h => nomatch h⟩

theorem mpsseEmit (cmd : MCmd) : Statement (.mpsseEmit cmd) := ⟨rfl, fun h => nomatch h⟩

end Sys2Proof.Laws.Shape
end

