-- ==== Sys2Proof/Tests/Slice0.lean ====
section
/-! SUPPORT. Tests: the words of the spec's encodings decoded (30_encoding.md R93, R98),
  the smoke tests of WellFormed,
worked examples of 95_test_vectors.md run for one step, and for every statement with hypotheses a state and operands
that meet them together. -/

namespace Sys2Proof.Tests

open Sys2Proof.Machine

/-! ## Small states -/

/-- The state a step leaves, if it leaves one. -/
def after (i : Instr) (s : State) : Option State :=
  match exec i s with
  | .next t => some t
  | .fault _ => none
  | .refused _ => none

/-- The bytes of every write made. -/
def writesOf (s : State) : List (List Byte) :=
  s.chan.calls.filterMap fun c => match c with
    | .write bs => some bs
    | _ => none

/-- The answer and the writes of an instruction. -/
def saw (i : Instr) (s : State) : Option (Answer × List (List Byte)) :=
  (after i s).map fun t => (t.answer, writesOf t)

/-- The data-out level of a clock pulse. -/
def doutOf (w : WireEvt) : Option Bool :=
  match w with
  | .pulse p => some p.dout
  | .low _ _ => none
  | .high _ _ => none
  | .mode _ _ => none

/-- An open JTAG channel with the mirror and the target at a state, TCK and TMS driven low. -/
def jtagAt (t : Tap) : State :=
  { State.reset with
    ch := .opened
    proto := .jtag
    tapKnown := true
    tapCur := t
    plVal := 0x08
    plDir := 0x0B
    chan := { Chan.reset with target := t, eng := { Engine.reset with lowDir := 0x0B } } }

/-- An open SPI channel, select idle. -/
def spiOn (m : SpiMode) (activeHigh : Bool) : State :=
  { State.reset with
    ch := .opened
    proto := .spi
    spiMode := m
    spiCsActiveHigh := activeHigh
    plVal := 0x08
    plDir := 0x0B
    chan := { Chan.reset with eng := { Engine.reset with lowVal := 0x08, lowDir := 0x0B } } }

/-- An open I2C channel with the bus idle, on a chip with open-drain outputs or without. -/
def i2cOn (od : Bool) : State :=
  { State.reset with
    ch := .opened
    proto := .i2c
    cap := ⟨true, true, od⟩
    plVal := if od then 0x03 else 0x01
    plDir := if od then 0x03 else 0x01
    chan := { Chan.reset with sup := ⟨true, true, od⟩ } }

/-- The channel's stream of unread responses set. -/
def withRx (s : State) (rx : List Byte) : State := { s with chan := { s.chan with rx := rx } }

/-- What the channel agent will do, set. -/
def withTurns (s : State) (ts : List Turn) : State := { s with chan := { s.chan with turns := ts } }

/-- The engine's flushed stream set. -/
def withTx (s : State) (tx : List Byte) : State := { s with chan := { s.chan with tx := tx } }

/-- The levels the environment puts on the data-in pin, set. -/
def withDin (s : State) (din : List Bool) : State := { s with chan := { s.chan with din := din } }

/-- The levels the environment puts on the undriven pins, set. -/
def withPins (s : State) (ps : List Byte) : State := { s with chan := { s.chan with pins := ps } }

/-- The engine's state set. -/
def withEng (s : State) (e : Engine) : State := { s with chan := { s.chan with eng := e } }

/-- Loopback on. -/
def looped (s : State) : State := withEng s { s.chan.eng with loopback := true }

/-- The chip's capabilities set, latched too. -/
def withSup (s : State) (c : Caps) : State := { s with cap := c, chan := { s.chan with sup := c } }

/-! ## WellFormed refuses what has no encoding -/

theorem test_wf_no_bytes : (Instr.outBytesWpMsb []).wellFormed = false := by decide
theorem test_wf_read_zero : (Instr.inBytesRpMsb 0).wellFormed = false := by decide
theorem test_wf_read_beyond : (Instr.inBytesRnLsb 65537).wellFormed = false := by decide
theorem test_wf_zero_bits : (Instr.outBitsWnMsb 0 0xFF).wellFormed = false := by decide
theorem test_wf_nine_bits : (Instr.ioBitsWnRpLsb 9 0xFF).wellFormed = false := by decide
theorem test_wf_zero_clocks : (Instr.tmsWn 0 0x1F).wellFormed = false := by decide
theorem test_wf_eight_clocks : (Instr.tmsrWnRp 8 0x1F).wellFormed = false := by decide
theorem test_wf_port_number : (Instr.qRead 4294967296).wellFormed = false := by decide
theorem test_wf_port_emit_number : (Instr.mpsseEmit (.bitsR .rpMsb 4294967296)).wellFormed = false := by decide
theorem test_wf_known_is_not_unknown : (Instr.mpsseEmit (.unknown 0x4B)).wellFormed = false := by decide
theorem test_wf_accepts : (Instr.mpsseEmit (.tms .wn 8 0xFF)).wellFormed = true := by decide

/-! ## Words decode to the instruction they stand for -/

/-- Every byte-oriented shift, from its row of R93 and its format of R81, R83. -/
theorem test_decode_byte_shifts :
    ∀ p ∈ [
      ([0x10, 0x01, 0x00, 0xA5, 0x3C], Instr.outBytesWpMsb [0xA5, 0x3C]),
      ([0x11, 0x01, 0x00, 0xA5, 0x3C], .outBytesWnMsb [0xA5, 0x3C]),
      ([0x18, 0x00, 0x00, 0x81], .outBytesWpLsb [0x81]),
      ([0x19, 0x00, 0x00, 0x81], .outBytesWnLsb [0x81]),
      ([0x39, 0x02, 0x00, 0x00, 0x00, 0x00], .ioBytesWnRpLsb [0, 0, 0]),
      ([0x31, 0x00, 0x00, 0x9F], .ioBytesWnRpMsb [0x9F]),
      ([0x34, 0x00, 0x00, 0x9F], .ioBytesWpRnMsb [0x9F]),
      ([0x3C, 0x00, 0x00, 0x9F], .ioBytesWpRnLsb [0x9F]),
      ([0x20, 0xFF, 0xFF], .inBytesRpMsb 65536),
      ([0x24, 0x00, 0x01], .inBytesRnMsb 257),
      ([0x28, 0x02, 0x00], .inBytesRpLsb 3),
      ([0x2C, 0x00, 0x00], .inBytesRnLsb 1)],
      decode .m p.1 = some (p.2, []) := by
  decide

/-- Every bit-oriented shift, from its row of R93 and its format of R81, R84. -/
theorem test_decode_bit_shifts :
    ∀ p ∈ [
      ([0x12, 0x07, 0xA5], Instr.outBitsWpMsb 8 0xA5),
      ([0x13, 0x00, 0x80], .outBitsWnMsb 1 0x80),
      ([0x1A, 0x03, 0x0F], .outBitsWpLsb 4 0x0F),
      ([0x1B, 0x03, 0x0F], .outBitsWnLsb 4 0x0F),
      ([0x22, 0x00], .inBitsRpMsb 1),
      ([0x26, 0x04], .inBitsRnMsb 5),
      ([0x2A, 0x06], .inBitsRpLsb 7),
      ([0x2E, 0x07], .inBitsRnLsb 8),
      ([0x33, 0x03, 0xC0], .ioBitsWnRpMsb 4 0xC0),
      ([0x36, 0x03, 0xC0], .ioBitsWpRnMsb 4 0xC0),
      ([0x3B, 0x06, 0x7E], .ioBitsWnRpLsb 7 0x7E),
      ([0x3E, 0x06, 0x7E], .ioBitsWpRnLsb 7 0x7E)],
      decode .m p.1 = some (p.2, []) := by
  decide

/-- Every TMS command, from its row of R93 and its format of R86. -/
theorem test_decode_tms :
    ∀ p ∈ [
      ([0x4A, 0x06, 0x7F], Instr.tmsWp 7 0x7F),
      ([0x4B, 0x04, 0x1F], .tmsWn 5 0x1F),
      ([0x6A, 0x00, 0x01], .tmsrWpRp 1 0x01),
      ([0x6B, 0x00, 0x81], .tmsrWnRp 1 0x81),
      ([0x6E, 0x01, 0x02], .tmsrWpRn 2 0x02),
      ([0x6F, 0x01, 0x02], .tmsrWnRn 2 0x02)],
      decode .m p.1 = some (p.2, []) := by
  decide

/-- Every pin and configuration command, from its row of R93 and its format of R81, R85, R87. -/
theorem test_decode_pins_and_switches :
    ∀ p ∈ [
      ([0x80, 0x08, 0x0B], Instr.setLow 0x08 0x0B),
      ([0x81], .getLow),
      ([0x82, 0xF0, 0x0F], .setHigh 0xF0 0x0F),
      ([0x83], .getHigh),
      ([0x84], .loopOn),
      ([0x85], .loopOff),
      ([0x86, 0x5F, 0xEA], .setDiv 0xEA5F),
      ([0x87], .sendImm),
      ([0x8A], .div5Off),
      ([0x8B], .div5On),
      ([0x8C], .ph3On),
      ([0x8D], .ph3Off),
      ([0x96], .adaptOn),
      ([0x97], .adaptOff),
      ([0x9E, 0x03, 0xC0], .odCfg 0x03 0xC0),
      ([0xAA], .bogus)],
      decode .m p.1 = some (p.2, []) := by
  decide

/-- Every host operation, from its OPSEL in R98; the operand layout is the model's (log entry 3). -/
theorem test_decode_host :
    ∀ p ∈ [
      ([0x00, 0x87], Instr.qEnq 0x87),
      ([0x01, 0x03, 0x00, 0x00, 0x00, 0x4B, 0x04, 0x1F], .qEnqs [0x4B, 0x04, 0x1F]),
      ([0x02], .qFlush),
      ([0x03, 0x00, 0x01, 0x00, 0x00], .qRead 256),
      ([0x04], .qCount),
      ([0x10, 0x40, 0x42, 0x0F, 0x00], .clkConfigure 1000000),
      ([0x20, 0x02, 0x01], .tapNext .drSelect true),
      ([0x21, 0x00, 0x0B], .tapPath .reset .irShift),
      ([0x22, 0x0D], .tapGoto .irPause),
      ([0x30], .jtagReset),
      ([0x31, 0x08, 0x00, 0x00, 0x00, 0x01, 0x00, 0x00, 0x00, 0xFE], .jtagScanIr 8 [0xFE]),
      ([0x32, 0x09, 0x00, 0x00, 0x00, 0x02, 0x00, 0x00, 0x00, 0xFF, 0x01], .jtagScanDr 9 [0xFF, 0x01]),
      ([0x33, 0x0D], .jtagSetEndIr .irPause),
      ([0x34, 0x06], .jtagSetEndDr .drPause),
      ([0x40], .spiAssert),
      ([0x41], .spiClear),
      ([0x42, 0x0C, 0x00, 0x00, 0x00, 0x02, 0x00, 0x00, 0x00, 0xA5, 0xC0], .spiTransact 12 [0xA5, 0xC0]),
      ([0x43, 0x08, 0x00, 0x00, 0x00, 0x01, 0x00, 0x00, 0x00, 0x06], .spiWrite 8 [0x06]),
      ([0x44, 0x18, 0x00, 0x00, 0x00], .spiRead 24),
      ([0x50], .i2cStart),
      ([0x51], .i2cRstart),
      ([0x52], .i2cStop),
      ([0x53, 0xA0], .i2cWriteByte 0xA0),
      ([0x54, 0x01], .i2cReadByte true),
      ([0x55, 0x50, 0x02, 0x00, 0x00, 0x00], .i2cXread 0x50 2),
      ([0x56, 0x50, 0x02, 0x00, 0x00, 0x00, 0x00, 0x12], .i2cXwrite 0x50 [0x00, 0x12]),
      ([0x60], .mpsseSync),
      ([0x61, 0x40, 0x42, 0x0F, 0x00], .jtagOpen 1000000),
      ([0x62, 0x80, 0xC3, 0xC9, 0x01], .spiOpen 30000000),
      ([0x63, 0xA0, 0x86, 0x01, 0x00], .i2cOpen 100000),
      ([0x64], .close),
      ([0x70, 0x4B, 0x05, 0x00, 0x00, 0x00, 0x1F], .mpsseEmit (.tms .wn 5 0x1F))],
      decode .h p.1 = some (p.2, []) := by
  decide

/-- `0x4B` bit by bit from R82: WTMS, BITMODE and LSBF set, WNEG set, RDAT and WDAT clear. -/
theorem test_decode_tms_bits : decode .m [0b01001011, 0b00000100, 0b00011111] = some (.tmsWn 5 0x1F, []) := by decide

/-- R88 on the 19-byte flush of vector J2: six commands and nothing left. -/
theorem test_decode_stream :
    decode .m [0x4B, 0x02, 0x01, 0x39, 0x02, 0x00, 0x00, 0x00, 0x00]
      = some (.tmsWn 3 0x01, [0x39, 0x02, 0x00, 0x00, 0x00, 0x00]) := by decide

theorem test_decode_refuses_gap : decode .m [0x8E] = none := by decide
theorem test_decode_refuses_short : decode .m [0x10, 0x01, 0x00, 0xA5] = none := by decide
theorem test_decode_refuses_opsel : decodeHost [0x05] = .error (.unknownOpsel 0x05) := by rfl
theorem test_decode_refuses_tap : decodeHost [0x22, 0x10] = .error (.badTapCode 0x10) := by rfl
theorem test_decode_refuses_bit : decodeHost [0x54, 0x02] = .error (.badBit 0x02) := by rfl

/-- A table word and the step it gives as the first after reset (log entries 1 and 2). -/
theorem test_table_word : decodeTableWord 8 0x87 = some .sendImm := by decide
theorem test_table_word_host : decodeTableWord 8 0x30 = some .jtagReset := by decide
theorem test_fetch_word : (State.reset.withFetchWord 8 0x84).chan.tx = [0x84] := by decide
theorem test_fetch_word_host : (State.reset.withFetchWord 8 0x60).port = [0x60] := by decide

/-! ## The engine's commands, one step each -/

/-- R84, R228: MSB first, the first three bits of the byte. -/
theorem test_shift_out_levels :
    (after (.outBitsWnMsb 3 0b10100000) State.reset).map (fun t => t.chan.wire.filterMap doutOf)
      = some [true, false, true] := by decide

/-- R96: the first captured bit of an MSB-first byte is bit 7. -/
theorem test_shift_in_bytes_msb :
    (after (.inBytesRpMsb 1) (withDin State.reset [true, false, true, false, false, false, false, false])).map
      (·.chan.eng.gathered) = some [0xA0] := by decide +kernel

/-- R96: the first captured bit of an LSB-first byte is bit 0. -/
theorem test_shift_in_bytes_lsb :
    (after (.inBytesRnLsb 1) (withDin State.reset [true, false, true, false, false, false, false, false])).map
      (·.chan.eng.gathered) = some [0x05] := by decide +kernel

/-- R264: data-out is fed back. -/
theorem test_loopback_bytes :
    (after (.ioBytesWnRpLsb [0xA5, 0x3C]) (looped State.reset)).map (·.chan.eng.gathered)
      = some [0xA5, 0x3C] := by decide +kernel

/-- P1 step 2: `4B 04 06` takes the target from RESET to IRSHIFT. -/
theorem test_tms_walk :
    (after (.tmsWn 5 0x06) (jtagAt .reset)).map (·.chan.target) = some .irShift := by decide

/-- R86: bit 7 is held on data-out; R250. -/
theorem test_tms_tdi :
    (after (.tmsrWnRp 1 0x81) (jtagAt .drShift)).map (fun t => (t.chan.target, t.chan.eng.dataOut))
      = some (.drExit1, true) := by decide

/-- R260. -/
theorem test_set_low :
    (after (.setLow 0x08 0x0B) State.reset).map (fun t => (t.chan.eng.lowVal, t.chan.eng.lowDir,
      t.chan.eng.highVal)) =
      some (0x08, 0x0B, 0x00) := by decide

/-- R261: pins 0, 1 and 3 driven at 0, 0, 1; the others as outside (0x3C has bits 2 to 5 set). -/
theorem test_get_low :
    (after .getLow (withEng (withPins State.reset [0x3C]) { Engine.reset with lowVal := 0x08, lowDir := 0x0B })).map
      (·.chan.eng.gathered) = some [0x3C] := by decide

/-- R263: pins 0, 1, 6, 7 driven at 1, 0, 0, 1. -/
theorem test_get_high :
    (after .getHigh (withEng (withPins State.reset [0x3C])
      { Engine.reset with highVal := 0x81, highDir := 0xC3 })).map
      (·.chan.eng.gathered) = some [0xBD] := by decide

/-- R266. -/
theorem test_set_div :
    (after (.setDiv 0xEA5F) State.reset).map (·.chan.eng.divisor) = some 0xEA5F := by decide

/-- R273, R68: not yet in `RX`. -/
theorem test_send_imm :
    (after .sendImm (withEng State.reset { Engine.reset with gathered := [0x12, 0x34] })).map (fun t =>
      (t.chan.rx, t.chan.inFlight, t.chan.eng.gathered)) = some ([], [0x12, 0x34], []) := by decide

/-- R275. -/
theorem test_bogus :
    (after .bogus State.reset).map (·.chan.eng.gathered) = some [0xFA, 0xAA] := by decide

/-- R97: no open-drain outputs on the default chip. -/
theorem test_gated_off :
    (after (.odCfg 0x03 0x00) State.reset).map (fun t => (t.chan.eng.gathered, t.chan.tx))
      = some ([0xFA, 0x9E], [0x03, 0x00]) := by decide

/-- R268. -/
theorem test_gated_on :
    (after .div5On State.reset).map (·.chan.eng.div5) = some true := by decide

/-! ## The host operations, one step each (95_test_vectors.md) -/

/-- Q1. -/
theorem test_q1 :
    (after (.qEnq 0x87) (jtagAt .reset)).map (fun t => (t.qcur, t.qbuf)) = some (1, [(0, 0x87)]) := by decide

/-- Q4. -/
theorem test_q4 :
    (after (.qEnq 0x00) { jtagAt .reset with qcur := 70000 }).map (fun t => (t.qcur, t.qbuf, t.flog)) =
      some (70000, [], [⟨.sizing, .qEnq, .queueOverflow 1 0⟩]) := by decide

/-- Q5. -/
theorem test_q5 :
    (after (.qEnqs [0x01, 0x02]) { jtagAt .reset with qcur := 69999 }).map (fun t => (t.qcur, t.qbuf, t.flog)) =
      some (69999, [], [⟨.sizing, .qEnqs, .queueOverflow 2 1⟩]) := by decide

/-- Q8. -/
theorem test_q8 :
    (saw .qFlush { jtagAt .reset with qbuf := [(0, 0x4B), (1, 0x04), (2, 0x1F)], qcur := 3 })
      = some (.done, [[0x4B, 0x04, 0x1F]]) := by decide

/-- Q10. -/
theorem test_q10 :
    (after .qFlush (withTurns { jtagAt .reset with qbuf := [(0, 0x4B), (1, 0x04), (2, 0x1F)], qcur := 3 } [.fails
      1])).map
      (fun t => (t.qcur, t.tapKnown, t.flog)) = some (0, false, [⟨.transport, .qFlush, .write⟩]) := by decide

/-- Q12. -/
theorem test_q12 :
    (after (.qRead 2) (withRx (jtagAt .reset) [0x12, 0x34, 0x56])).map (fun t => (t.answer, t.chan.rx))
      = some (.bytes [0x12, 0x34], [0x56]) := by decide

/-- Q14. -/
theorem test_q14 :
    (after (.qRead 2) (withRx (jtagAt .reset) [0x12])).map (fun t => (t.chan.rx, t.flog))
      = some ([], [⟨.transport, .qRead, .read 1⟩]) := by decide

/-- R68: after a stream ending in `87` the bytes arrive one by one. -/
theorem test_q15_growth :
    (after .qCount (withTurns (withTx (withEng (jtagAt .reset) { Engine.reset with gathered := [0x12, 0x34] }) [0x87])
      [.answers 1])).map (fun t => (t.answer, t.chan.rx, t.chan.inFlight))
        = some (.nat 1, [0x12], [0x34]) := by decide

/-- Q15. -/
theorem test_q15 :
    (after .qCount (withRx (jtagAt .reset) [0x12, 0x34, 0x56])).map (fun t => (t.answer, t.chan.rx))
      = some (.nat 3, [0x12, 0x34, 0x56]) := by decide

/-- K1 to K30. -/
theorem test_k_table :
    ∀ p ∈ [
      (0, true, 65535), (1, true, 65535), (91, true, 65535), (92, true, 65217), (100, true, 59999),
      (100, false, 59999), (457, true, 13129), (458, true, 13100), (1000, true, 5999), (100000, true, 59),
      (150000, true, 39), (400000, true, 14), (545454, true, 11), (545455, true, 10), (600000, true, 9),
      (1000000, true, 5), (3000000, true, 1), (5999999, true, 1), (6000000, true, 0), (6000001, true, 0),
      (12000000, true, 0), (12000001, true, 2), (15000000, true, 1), (20000000, true, 1), (29999999, true, 1),
      (30000000, true, 0), (60000000, true, 0), (4294967295, true, 0), (30000000, false, 0), (6000000, false, 0)],
      clkDivisorFor Config.params p.2.1 p.1 = p.2.2 := by decide

/-- K22. -/
theorem test_k22 :
    saw (.clkConfigure 12000001) (spiOn .m0 false) = some (.divisor 2, [[0x8A, 0x86, 0x02, 0x00]]) := by decide

/-- K6. -/
theorem test_k6 :
    saw (.clkConfigure 100) (withSup (spiOn .m0 false) ⟨true, false, false⟩)
      = some (.divisor 0xEA5F, [[0x86, 0x5F, 0xEA]]) := by decide

/-- T1. -/
theorem test_t1 :
    saw (.tapNext .drSelect true) State.reset = some (.tap .irSelect, []) := by decide

/-- T3. -/
theorem test_t3 :
    saw (.tapPath .reset .irShift) State.reset = some (.bits [false, true, true, false, false], []) := by decide

/-- T4. -/
theorem test_t4 :
    (after (.tapPath .drSelect .idle) State.reset).map (·.flog)
      = some [⟨.noPath, .tapPath, .path .drSelect .idle⟩] := by decide

/-- T8. -/
theorem test_t8 :
    saw (.tapGoto .irPause) (jtagAt .drPause) = some (.bits [true, true, true, true, false, true, false], [[0x4B,
      0x06, 0x2F]]) := by decide

/-- T13. -/
theorem test_t13 :
    (after (.tapGoto .idle) (withTurns (jtagAt .reset) [.fails 0])).map (fun t => (t.tapCur, t.tapKnown, t.qcur))
      = some (.reset, false, 0) := by decide

/-- The packing examples of B3. -/
theorem test_tms_seq :
    tmsSeq [true, true, true, true, true] = [0x4B, 0x04, 0x1F] ∧ tmsSeq [false, true, false, true, false, true,
      false, true]
      = [0x4B, 0x06, 0x2A, 0x4B, 0x00, 0x01] ∧ tmsSeq (List.replicate 9 true) = [0x4B, 0x06, 0x7F, 0x4B, 0x01, 0x03]
        ∧ tmsSeq [] = [] := by decide

/-- P1 step 2. -/
theorem test_j1 :
    saw (.jtagScanIr 8 [0xFE]) (withRx (jtagAt .reset) [0x02, 0x00]) = some (.bytes [0x01],
      [[0x4B, 0x04, 0x06, 0x3B, 0x06, 0x7E, 0x6B, 0x00, 0x81, 0x4B, 0x01, 0x01, 0x87]]) := by decide +kernel

/-- P1 step 3. -/
theorem test_j2 :
    saw (.jtagScanDr 32 [0, 0, 0, 0]) (withRx (jtagAt .idle) [0x77, 0x04, 0xA0, 0x96, 0x80])
      = some (.bytes [0x77, 0x04, 0xA0, 0xCB],
      [[0x4B, 0x02, 0x01, 0x39, 0x02, 0x00, 0x00, 0x00, 0x00, 0x3B, 0x06, 0x00, 0x6B, 0x00, 0x01, 0x4B, 0x01, 0x01,
        0x87]]) := by decide +kernel

/-- J5, J10g. -/
theorem test_j7 :
    saw (.jtagScanIr 5 [0x1F]) (withRx { jtagAt .idle with endIr := .irPause } [0xA0, 0x80]) = some (.bytes [0x1A],
      [[0x4B, 0x03, 0x03, 0x3B, 0x03, 0x0F, 0x6B, 0x00, 0x81, 0x4B, 0x00, 0x00, 0x87]]) := by decide

/-- J10 to J10i. -/
theorem test_j10 :
    ∀ p ∈ [
      (32, ([0x77, 0x04, 0xA0, 0x96, 0x80] : List Byte), ([0x77, 0x04, 0xA0, 0xCB] : List Byte)),
      (8, ([0xAA, 0x80] : List Byte), ([0xD5] : List Byte)),
      (8, ([0x02, 0x00] : List Byte), ([0x01] : List Byte)),
      (8, ([0xFF, 0x7F] : List Byte), ([0x7F] : List Byte)),
      (1, ([0x80] : List Byte), ([0x01] : List Byte)),
      (1, ([0x7F] : List Byte), ([0x00] : List Byte)),
      (9, ([0x5A, 0x80] : List Byte), ([0x5A, 0x01] : List Byte)),
      (5, ([0xA0, 0x80] : List Byte), ([0x1A] : List Byte)),
      (5, ([0xAF, 0x00] : List Byte), ([0x0A] : List Byte)),
      (3, ([0x40, 0x80] : List Byte), ([0x05] : List Byte))],
      scanDecode p.1 p.2.1 = p.2.2 := by decide

/-- J11. -/
theorem test_j11 :
    saw .jtagReset { jtagAt .drShift with tapKnown := false } = some (.done, [[0x4B, 0x04, 0x1F]]) := by decide

/-- J13. -/
theorem test_j13 :
    (after (.jtagSetEndIr .irPause) (jtagAt .idle)).map (fun t => (t.endIr, t.endDr))
      = some (.irPause, .idle) := by decide

/-- J14. -/
theorem test_j14 :
    (after (.jtagSetEndDr .drShift) (jtagAt .idle)).map (fun t => (t.endDr, t.answer))
      = some (.idle, .fault .configuration) := by decide

/-- P5 step 2: one byte arrives, then the timeout. J20: 15 bytes buffered, 3 more needed. -/
theorem test_p5_j20 :
    (after (.jtagScanDr 8 [0]) (withTurns (jtagAt .idle) [.answers 0, .answers 1,
      .fails 0])).map (fun t => (t.tapKnown, t.flog)) =
      some (false, [⟨.transport, .jtagScanDr, .read 1⟩])
      ∧ (after (.jtagScanDr 32 [0, 0, 0, 0]) { jtagAt .idle with par := { Config.params with qcap := 16 } }).map
      (fun t => (t.qcur, t.tapCur, t.tapKnown, t.flog)) = some (0, .idle, true, [⟨.sizing, .jtagScanDr,
        .queueOverflow 3 1⟩]) := by decide +kernel

/-- P12s. -/
theorem test_p12s :
    saw .spiAssert (spiOn .m0 false) = some (.done, [[0x80, 0x00, 0x0B, 0x80, 0x00, 0x0B, 0x80, 0x00, 0x0B, 0x80,
      0x00, 0x0B, 0x80, 0x00, 0x0B]]) := by decide

/-- The upper pins are kept (B5). -/
theorem test_p13s :
    (saw .spiClear { spiOn .m0 false with plVal := 0x58, plDir := 0x5B }) = some (.done, [[0x80, 0x58, 0x5B, 0x80,
      0x58, 0x5B, 0x80, 0x58, 0x5B, 0x80, 0x58, 0x5B, 0x80, 0x58, 0x5B]]) := by decide

/-- P1s. -/
theorem test_p1s :
    saw (.spiTransact 12 [0xA5, 0xC0]) (withRx (spiOn .m0 false) [0x3C, 0xFA]) = some (.bytes [0x3C, 0xA0],
      [[0x80, 0x00, 0x0B, 0x80, 0x00, 0x0B, 0x80, 0x00, 0x0B, 0x80, 0x00, 0x0B, 0x80, 0x00, 0x0B] ++
       [0x31, 0x00, 0x00, 0xA5, 0x33, 0x03, 0xC0] ++
       [0x80, 0x08, 0x0B, 0x80, 0x08, 0x0B, 0x80, 0x08, 0x0B, 0x80, 0x08, 0x0B, 0x80, 0x08, 0x0B,
         0x87]]) := by decide +kernel

/-- P7s. -/
theorem test_p7s :
    saw (.spiWrite 12 [0xA5, 0xCF]) (spiOn .m0 false) = some (.done, [[0x11, 0x00, 0x00, 0xA5, 0x13, 0x03,
      0xC0]]) := by decide

/-- P10s in mode 2. -/
theorem test_p10s :
    saw (.spiRead 12) (withRx (spiOn .m2 false) [0x3C, 0x0A]) = some (.bytes [0x3C, 0xA0], [[0x24, 0x00, 0x00, 0x26,
      0x03, 0x87]]) := by decide +kernel

/-- I1. -/
theorem test_i1 :
    saw .i2cStart (i2cOn false) = some (.done, [(List.replicate 4 [0x80, 0x01,
      0x01]).flatten ++ (List.replicate 4 [0x80, 0x01, 0x03]).flatten ++ (List.replicate 4 [0x80, 0x00,
        0x03]).flatten]) := by decide

/-- I2. -/
theorem test_i2 :
    saw .i2cRstart (i2cOn true) = some (.done, [(List.replicate 4 [0x80, 0x02,
      0x03]).flatten ++ (List.replicate 4 [0x80, 0x03, 0x03]).flatten ++
      (List.replicate 4 [0x80, 0x01, 0x03]).flatten ++ (List.replicate 4 [0x80, 0x00, 0x03]).flatten]) := by decide

/-- I3. -/
theorem test_i3 :
    saw .i2cStop (i2cOn false) = some (.done, [(List.replicate 4 [0x80, 0x00,
      0x03]).flatten ++ (List.replicate 4 [0x80, 0x01, 0x03]).flatten ++ (List.replicate 4 [0x80, 0x01,
        0x01]).flatten]) := by decide

/-- I4: stale upper bits, sampled bit 0. -/
theorem test_i4 :
    saw (.i2cWriteByte 0xA0) (withRx (i2cOn false) [0xFE]) = some (.acked true,
      [[0x80, 0x00, 0x03, 0x11, 0x00, 0x00, 0xA0, 0x80, 0x00, 0x01, 0x22, 0x00, 0x87]]) := by decide

/-- I4: a NAK. -/
theorem test_i4_nak :
    saw (.i2cWriteByte 0xA0) (withRx (i2cOn true) [0x01]) = some (.acked false,
      [[0x80, 0x00, 0x03, 0x11, 0x00, 0x00, 0xA0, 0x80, 0x02, 0x03, 0x22, 0x00, 0x87]]) := by decide

/-- I6. -/
theorem test_i6 :
    saw (.i2cReadByte true) (withRx (i2cOn false) [0x5A]) = some (.byte 0x5A,
      [[0x80, 0x00, 0x01, 0x20, 0x00, 0x00, 0x80, 0x00, 0x03, 0x13, 0x00, 0x00, 0x80, 0x00, 0x01,
        0x87]]) := by decide +kernel

/-- I7. -/
theorem test_i7 :
    saw (.i2cReadByte false) (withRx (i2cOn true) [0x5A]) = some (.byte 0x5A,
      [[0x80, 0x02, 0x03, 0x20, 0x00, 0x00, 0x80, 0x00, 0x03, 0x13, 0x00, 0x80, 0x80, 0x02, 0x03,
        0x87]]) := by decide +kernel

/-- I10, with `I2C_REPEAT` 1. -/
theorem test_i10 :
    saw (.i2cXwrite 0x50 [0x00, 0x12]) (withRx { i2cOn false with par := { Config.params with i2cRepeat := 1 } }
      [0x00, 0x00, 0x01]) = some (.optNat (some 1),
      [[0x80, 0x01, 0x01, 0x80, 0x01, 0x03, 0x80, 0x00, 0x03], [0x80, 0x00, 0x03, 0x11, 0x00, 0x00, 0xA0, 0x80,
        0x00, 0x01, 0x22, 0x00, 0x87],
       [0x80, 0x00, 0x03, 0x11, 0x00, 0x00, 0x00, 0x80, 0x00, 0x01, 0x22, 0x00, 0x87], [0x80, 0x00, 0x03, 0x11,
         0x00, 0x00, 0x12, 0x80, 0x00, 0x01, 0x22, 0x00, 0x87],
       [0x80, 0x00, 0x03, 0x80, 0x01, 0x03, 0x80, 0x01, 0x01]]) := by decide

/-- I12. -/
theorem test_i12 :
    (saw (.i2cXread 0x50 2) (withRx { i2cOn false with par := { Config.params with i2cRepeat := 1 } } [0x00, 0xDE,
      0xAD])).map Prod.fst = some (.optBytes (some [0xDE, 0xAD])) := by decide +kernel

/-- I16. -/
theorem test_i16 :
    (after (.i2cXread 0x80 1) (i2cOn false)).map (·.flog) = some [⟨.sizing, .i2cXread, .sizes 0x80 0x7F⟩] := by decide

/-- S5. -/
theorem test_s5 :
    (after .mpsseSync (withRx (jtagAt .idle) [0x00])).map (fun t => (t.ch, t.chan.rx, t.flog)) =
      some (.dead, [0xAA], [⟨.synchronization, .mpsseSync, .got [0x00, 0xFA]⟩]) := by decide

/-- S6. -/
theorem test_s6 :
    (after .mpsseSync (withTurns { jtagAt .idle with par := { Config.params with syncPollLimit := some 3 } }
      [.answers 0, .answers 0, .answers 0, .answers 0, .answers 0])).map (fun t => (t.ch, t.tapKnown, t.flog)) =
      some (.opened, false, [⟨.transport, .mpsseSync, .syncPollTimeout⟩]) := by decide

/-- O1. -/
theorem test_o1 :
    saw (.jtagOpen 1000000) State.reset = some (.divisor 5,
      [[0x8A, 0x97, 0x8D], [0xAA], [0x8B, 0x86, 0x05, 0x00], [0x85, 0x80, 0x08, 0x0B], [0x4B, 0x04,
        0x1F]]) := by decide

/-- O4. -/
theorem test_o4 :
    saw (.spiOpen 30000000) { State.reset with spiMode := .m2 } = some (.divisor 0,
      [[0x8A, 0x97, 0x8D], [0xAA], [0x8A, 0x86, 0x00, 0x00], [0x85, 0x80, 0x09, 0x0B]]) := by decide

/-- O7. -/
theorem test_o7 :
    saw (.i2cOpen 100000) { State.reset with chan := { Chan.reset with sup := ⟨true, true, true⟩ } }
      = some (.divisor 0x3B,
      [[0x8A, 0x97, 0x8D], [0xAA], [0x8B, 0x86, 0x3B, 0x00],
       [0x85, 0x9E, 0x03, 0x00, 0x80, 0x03, 0x03, 0x80, 0x03, 0x03, 0x80, 0x03, 0x03, 0x80, 0x03, 0x03]]) := by decide

/-- O8, K31. -/
theorem test_o8 :
    saw (.i2cOpen 100000) { State.reset with i2cThreePhase := true } = some (.divisor 0x27,
      [[0x8A, 0x97, 0x8D], [0xAA], [0x8C, 0x8B, 0x86, 0x27, 0x00],
       [0x85, 0x80, 0x01, 0x01, 0x80, 0x01, 0x01, 0x80, 0x01, 0x01, 0x80, 0x01, 0x01]]) := by decide

/-- R60: a capability query fails; no mode was set. -/
theorem test_o_query :
    (after (.spiOpen 1000000) (withTurns State.reset [.answers 0, .fails 0])).map (fun t => (t.ch, t.flog,
      t.chan.calls)) =
      some (.closed, [⟨.transport, .spiOpen, .supportsEnhanced⟩], [.supportsMpsse, .supportsEnhanced]) := by decide

/-- O15: unflushed bytes are dropped. R212: the TAP is not moved. -/
theorem test_o15 :
    (after .close { jtagAt .idle with qbuf := [(0, 0x87)], qcur := 1 }).map (fun t =>
      ((t.ch, t.proto, t.tapKnown), t.qcur, t.chan.tx, t.chan.target)) =
      some ((.closed, .none, false), 0, [], .idle) := by decide

/-- M8. -/
theorem test_m8 :
    (after (.mpsseEmit (.tms .wnRp 1 0x81)) (jtagAt .idle)).map (fun t => (t.qcur, t.qbuf))
      = some (3, [(0, 0x6B), (1, 0x00), (2, 0x81)]) := by decide

/-- M21. -/
theorem test_m21 :
    (after (.mpsseEmit (.tms .wn 8 0xFF)) (jtagAt .idle)).map (fun t => (t.qcur, t.flog))
      = some (0, [⟨.sizing, .mpsseEmit, .operand 8 7⟩]) := by decide

/-- F7. -/
theorem test_f7 :
    (after (.spiTransact 8 [0x9F]) { spiOn .m0 false with qcur := 69990 }).map (fun t => (t.qcur, t.plVal, t.flog)) =
      some (0, 0x08, [⟨.sizing, .spiTransact, .queueOverflow 3 1⟩]) := by decide

/-! ## The hypotheses of every statement met together -/

theorem test_witness_DecodeEncode :
    (Instr.outBytesWpMsb [0x00]).wellFormed = true ∧ (Instr.inBytesRnLsb 65536).wellFormed = true
      ∧ (Instr.ioBitsWnRpLsb 8 0xFF).wellFormed = true ∧ (Instr.tmsWn 7 0x7F).wellFormed = true
      ∧ decodeCmd [0x4B, 0x0F, 0x1F] = .cmd (.tmsWn 16 0x1F) [] := by decide

theorem test_witness_StepRunsDecoded :
    decodeCmd (withTx State.reset [0x87, 0x20]).chan.tx = .cmd .sendImm [0x20]
      ∧ (withTx State.reset [0x20]).chan.engFetch = .short ∧ decodeHost [0x60, 0x64]
        = .ok (.mpsseSync, [0x64]) := by refine ⟨by decide, by decide, rfl⟩

theorem test_witness_UnrecognisedOpcodeIsEchoed :
    (withTx State.reset [0x8E, 0x01]).chan.tx = 0x8E :: [0x01] ∧ CmdKey.ofOpcode 0x8E = none ∧ CmdKey.ofOpcode 0xFF
      = none := by decide

theorem test_witness_TargetFollowsTheClocks :
    (jtagAt .drShift).chan.eng.drivesTap = true ∧ tmsEdge .wn = .falling ∧ (jtagAt .drShift).chan.target = .drShift
      ∧ (jtagAt .irShift).chan.target = .irShift ∧ (jtagAt .drShift).chan.eng.tmsLevel = false := by decide

theorem test_witness_LoopbackReturnsWhatItSends :
    (looped State.reset).chan.eng.loopback = true ∧ writeReads .ioWnRpMsb ≠ none := by decide

theorem test_witness_ByteWrites :
    writeReads .ioWpRnLsb ≠ none ∧ writeReads .outWpMsb = none ∧ tmsReads .wnRn ≠ none ∧ tmsReads .wp
      = none := by decide

theorem test_witness_EveryShiftHoldsTms :
    (jtagAt .drShift).chan.eng.drivesTap = true ∧ (jtagAt .drShift).chan.target = .drShift
      ∧ ((after (.inBytesRnLsb 1) (withDin (jtagAt .drShift) (List.replicate 8 true))).map (·.chan.target))
        = some .drShift
      ∧ ((after (.inBitsRpMsb 2) (withEng (jtagAt .idle) { Engine.reset with lowDir := 0x0B, lowVal := 0x08 })).map
        (·.chan.target))
        = some .irSelect := by decide +kernel

/-- TCK rising with TMS standing high, and TCK staying low. -/
theorem test_witness_PinSetsLatchBothBytes :
    (jtagAt .idle).chan.eng.lowLevel clockBit = some false ∧ (jtagAt .idle).chan.eng.lowLevel selectBit = some false
      ∧ (after (.setLow 0x01 0x0B) (jtagAt .idle)).map (fun t => (t.chan.eng.lowLevel clockBit,
        t.chan.eng.lowLevel selectBit))
        = some (some true, some false)
      ∧ (after (.setLow 0x00 0x0B) (jtagAt .idle)).map (·.chan.eng.lowLevel clockBit) = some (some false)
      ∧ (withEng State.reset { Engine.reset with lowVal := 0x01, lowDir := 0x01 }).chan.eng.lowLevel clockBit
        = some true := by
  decide

theorem test_witness_PinReadsGiveEveryPin :
    (jtagAt .idle).chan.eng.drivesTap = true ∧ (drivenMask 0x08 0x0B 0x00).getLsbD 3 = true
      ∧ (drivenMask 0x08 0x0B 0x00).getLsbD 7 = false
      ∧ ([0x3C] : List Byte).head? = some 0x3C := by decide

theorem test_witness_GatedCommands :
    (withSup State.reset ⟨true, true, true⟩).chan.sup.enh = true
      ∧ (withSup State.reset ⟨true, true, true⟩).chan.sup.od = true
      ∧ (withSup State.reset ⟨true, false, false⟩).chan.sup.enh = false ∧ State.reset.chan.sup.od = false
      ∧ (after (.odCfg 0x00 0x00) (withSup State.reset ⟨true, true, true⟩)).map (·.chan.eng.lowLevel clockBit)
        = some (State.reset.chan.eng.lowLevel clockBit) := by decide

theorem test_witness_QueueAppends :
    (jtagAt .idle).ch = .opened ∧ ({ jtagAt .idle with qcur := 69999 } : State).qcur + [(0x00 : Byte)].length ≤
      Config.params.qcap
      ∧ Config.params.qcap < ({ jtagAt .idle with qcur := 70000 } : State).qcur + [(0x00 : Byte)].length := by decide

/-- An open channel with two bytes buffered. -/
def buffered : State := { spiOn .m0 false with qbuf := [(0, 0x81), (1, 0x87)], qcur := 2 }

theorem test_witness_FlushSendsTheRegion :
    buffered.ch = .opened ∧ buffered.qcur ≠ 0 ∧ buffered.chan.accepts = true
      ∧ (∀ a < buffered.qcur, (buffered.qbuf.read a).isSome = true)
      ∧ (withTurns buffered [.fails 0]).chan.accepts = false ∧ (spiOn .m0 false).qcur = 0 := by decide

/-- One byte in `RX`, one under way to it, one gathered, and nothing left for the engine to execute. -/
def arriving : State :=
  { withRx (jtagAt .idle) [0x12] with chan := { (withRx (jtagAt .idle) [0x12]).chan with
      inFlight := [0x34]
      eng := { Engine.reset with gathered := [0x56] } } }

/-- Each clause: enough past the last turn, too few, two chunks, and a short read before a failure. -/
theorem test_witness_ReadReturnsExactlyN :
    arriving.ch = .opened ∧ arriving.chan.tx = [] ∧ arriving.chan.turns = [] ∧ 3 ≤ arriving.chan.incoming.length
      ∧ arriving.chan.incoming.length < 4 ∧ (arriving.chan.arrived 1).length < 3
        ∧ 3 ≤ (arriving.chan.arrived (1 + 1)).length
      ∧ (withTurns arriving [.answers 1, .answers 1]).chan.turns = .answers 1 :: .answers 1 :: []
      ∧ (withTurns arriving [.answers 1, .fails 0]).chan.turns = .answers 1 :: .fails 0 :: []
      ∧ (after (.qRead 3) (withTurns arriving [.answers 1, .answers 1])).map (·.answer)
        = some (.bytes [0x12, 0x34, 0x56])
      ∧ (after (.qRead 3) (withTurns arriving [.answers 1, .fails 0])).map (·.flog)
        = some [⟨.transport, .qRead, .read 2⟩] := by
  decide

theorem test_witness_CountReturnsTheLengthOfRx :
    (withTurns (jtagAt .idle) [.answers 0]).ch = .opened ∧ (withTurns (jtagAt .idle) [.answers 0]).chan.tx = []
      ∧ (withTurns (jtagAt .idle) [.answers 0]).chan.turns = .answers 0 :: []
      ∧ (withTurns (jtagAt .idle) [.fails 0]).chan.turns = .fails 0 :: [] := by decide

theorem test_witness_DivisorIsTheLeast :
    1 ≤ 12000000 ∧ (12000000 ≤ 2 * (1 + 0) * 6000000 ∧ ∀ e < 0, ¬ 12000000 ≤ 2 * (1 + e) * 6000000)
      ∧ (12000000 ≤ 2 * (1 + 1) * 3000000 ∧ ∀ e < 1, ¬ 12000000 ≤ 2 * (1 + e) * 3000000)
      ∧ ∀ d ≤ 0xFFFF, ¬ 12000000 ≤ 2 * (1 + d) * 91 := by refine ⟨by decide, by decide, by decide,
        fun d h => by omega⟩

theorem test_witness_ClockRateIsBoundedAndMonotone :
    100 ≤ 100 ∧ 100 ≤ 60000000 ∧ 60000000 ≤ 60000000 := by decide

theorem test_witness_ClockConfigure :
    (spiOn .m0 false).ch = .opened ∧ (spiOn .m0 false).par.wf = true ∧ (spiOn .m0 false).chan.accepts = true
      ∧ (spiOn .m0 false).room (clockCmds Config.params true 1000000).length = true := by decide

theorem test_witness_PathIsTheShortestWalk :
    Tap.irExit1 ∈ Tap.pathSources ∧ Tap.irShift ∈ Tap.pathTargets := by decide

theorem test_witness_PathOutsideTheTable :
    ¬ (Tap.drSelect ∈ Tap.pathSources ∧ Tap.idle ∈ Tap.pathTargets) ∧ ¬ (Tap.idle ∈ Tap.pathSources
      ∧ Tap.drUpdate ∈ Tap.pathTargets)
      ∧ (jtagAt .idle).ch = .opened ∧ (jtagAt .idle).proto = .jtag ∧ (jtagAt .idle).tapKnown = true
        ∧ (jtagAt .idle).tapCur = .idle := by decide

theorem test_witness_GotoMovesMirrorAndTarget :
    (jtagAt .drPause).ch = .opened ∧ (jtagAt .drPause).proto = .jtag ∧ (jtagAt .drPause).tapKnown = true
      ∧ (jtagAt .drPause).tapCur ∈ Tap.pathSources ∧ Tap.irPause ∈ Tap.pathTargets ∧ (jtagAt .drPause).room 3 = true
      ∧ (jtagAt .drPause).chan.accepts = true ∧ (jtagAt .drPause).chan.tx = []
      ∧ (jtagAt .drPause).chan.eng.drivesTap = true ∧ Mirrored (jtagAt .drPause) := by
  unfold Mirrored
  decide

theorem test_witness_JtagReset :
    (jtagAt .drShift).room (tmsSeq (List.replicate 5 true)).length = true ∧ 0 < (jtagAt .drShift).par.resetPulses
      ∧ 5 ≤ (jtagAt .drShift).par.resetPulses ∧ (jtagAt .drShift).chan.accepts = true ∧ (jtagAt .drShift).chan.tx = []
      ∧ (jtagAt .drShift).chan.eng.drivesTap = true ∧ (jtagAt .drShift).ch = .opened ∧ (jtagAt .drShift).proto
        = .jtag := by decide

theorem test_witness_EndStates :
    (jtagAt .idle).ch = .opened ∧ (jtagAt .idle).proto = .jtag ∧ Tap.irPause ∈ [Tap.reset, .idle, .drPause, .irPause]
      ∧ Tap.drShift ∉ [Tap.reset, .idle, .drPause, .irPause] := by decide

/-- A scan of one bit answered, and one whose read fails. -/
theorem test_witness_ScanSendsReadsAndDecodes :
    (jtagAt .idle).ch = .opened ∧ (jtagAt .idle).proto = .jtag ∧ (jtagAt .idle).tapKnown = true
      ∧ (jtagAt .idle).tapCur ∈ Tap.pathSources ∧ stable (jtagAt .idle).endDr = true ∧ stable (jtagAt .idle).endIr
        = true
      ∧ [(0x01 : Byte)].length = (1 + 7) / 8 ∧ (1 - 1) / 8 ≤ Config.params.maxBlock ∧ (jtagAt .idle).chan.accepts
        = true
      ∧ (withTurns (jtagAt .idle) [.answers 0, .fails 0]).chan.accepts = true
      ∧ (jtagAt .idle).room (scanCmds .idle .drShift .drExit1 .idle 1 [0x01]).length = true
      ∧ (∃ resp c, ((jtagAt .idle).sent (scanCmds .idle .drShift .drExit1 .idle 1 [0x01])).chan.readExact 1
          = (.ok resp, c))
      ∧ ∃ c, ((withTurns (jtagAt .idle) [.answers 0, .fails 0]).sent
          (scanCmds .idle .irShift .irExit1 .idle 1 [0x01])).chan.readExact 1 = (.error 0, c) := by
  refine ⟨by decide, by decide, by decide, by decide, by decide, by decide, by decide, by decide, by decide,
    by decide,
    by decide, ⟨_, _, rfl⟩, ⟨_, rfl⟩⟩

theorem test_witness_ScanDecodePlacesEveryBit :
    (1 - 1) / 8 + (if (1 - 1) % 8 = 0 then 0 else 1) + 1 = ([0x80] : List Byte).length
      ∧ (16 - 1) / 8 + (if (16 - 1) % 8 = 0 then 0 else 1) + 1 = ([0x5A, 0xFE, 0x80] : List Byte).length := by decide

theorem test_witness_ScanPreconditions :
    ({ jtagAt .idle with tapKnown := false } : State).tapKnown = false ∧ (jtagAt .drSelect).tapKnown = true
      ∧ [(0x00 : Byte)].length = (8 + 7) / 8 ∧ (8 - 1) / 8 ≤ Config.params.maxBlock
      ∧ (jtagAt .drSelect).tapCur ∉ Tap.pathSources := by decide

/-- Each size that can disagree: no bits, a short buffer, a byte command beyond `MAX_BLOCK`. -/
theorem test_witness_TransferMisfits :
    TransferMisfits Config.params 0 0 [] 1 0 ∧ TransferMisfits Config.params 9 1 [0x00] 2 1
      ∧ TransferMisfits Config.params 524296 65537 (List.replicate 65537 0x00) 65537 65536 :=
  ⟨.inl ⟨rfl, rfl, rfl⟩, .inr (.inl ⟨by decide, by decide, rfl, rfl⟩),
    .inr (.inr ⟨by decide, by rw [List.length_replicate], by decide, rfl, rfl⟩)⟩

theorem test_witness_ScanEndToEnd :
    (jtagAt .drShift).chan.Quiet ∧ (jtagAt .drShift).par.wf = true ∧ (jtagAt .drShift).chan.eng.drivesTap = true
      ∧ (jtagAt .drShift).chan.target = (jtagAt .drShift).tapCur ∧ (jtagAt .drShift).chan.eng.tmsLevel = false
      ∧ (jtagAt .drShift).tapCur ∈ Tap.pathSources ∧ (jtagAt .drShift).tapKnown = true
      ∧ (jtagAt .drShift).ch = .opened ∧ (jtagAt .drShift).proto = .jtag
      ∧ stable (jtagAt .drShift).endDr = true ∧ stable (jtagAt .drShift).endIr = true
      ∧ [(0x05 : Byte)].length = (3 + 7) / 8 ∧ (3 - 1) / 8 ≤ (jtagAt .drShift).par.maxBlock
      ∧ (jtagAt .drShift).room (scanCmds .drShift .drShift .drExit1 .idle 3 [0x05]).length = true
      ∧ (jtagAt .drShift).room (scanCmds .drShift .irShift .irExit1 .idle 3 [0x05]).length = true := by
  unfold Chan.Quiet
  decide

theorem test_witness_SelectChanges :
    (spiOn .m0 false).ch = .opened ∧ (spiOn .m0 false).proto = .spi ∧ 0 < (spiOn .m0 false).par.spiSettleRepeat
      ∧ (spiOn .m0 false).chan.accepts = true ∧ (spiOn .m0 false).room (3 * (spiOn .m0 false).par.spiSettleRepeat)
        = true := by decide

theorem test_witness_SpiTransfers :
    (spiOn .m2 true).ch = .opened ∧ (spiOn .m2 true).proto = .spi ∧ spiModeSupported (spiOn .m2 true).spiMode = true
      ∧ 0 < (spiOn .m2 true).par.spiSettleRepeat ∧ [(0x80 : Byte)].length = (1 + 7) / 8
        ∧ 1 / 8 ≤ Config.params.maxBlock
      ∧ (spiOn .m2 true).chan.accepts = true ∧ (spiOn .m2 true).par.wf = true ∧ (spiOn .m2 true).chan.Quiet
      ∧ (looped (spiOn .m2 true)).chan.eng.loopback = true ∧ (looped (spiOn .m2 true)).chan.Quiet
      ∧ (spiOn .m2 true).room (transactCmds (spiOn .m2 true) 1 [0x80]).length = true
      ∧ (spiOn .m2 true).room (spiWriteCmds (spiOn .m2 true) 1 [0x80]).length = true
      ∧ (spiOn .m2 true).room (spiReadCmds (spiOn .m2 true) 1).length = true := by
  unfold Chan.Quiet
  decide

/-- The reads of a one-bit transfer are answered. -/
theorem test_witness_SpiAnswers :
    (∃ resp c, ((spiOn .m0 false).sent (transactCmds (spiOn .m0 false) 1 [0x80])).chan.readExact 1 = (.ok resp, c))
      ∧ ∃ resp c, ((spiOn .m0 false).sent (spiReadCmds (spiOn .m0 false) 1)).chan.readExact 1 = (.ok resp, c) :=
  ⟨⟨_, _, rfl⟩, ⟨_, _, rfl⟩⟩

theorem test_witness_SpiSizesAreChecked :
    (spiOn .m0 false).ch = .opened ∧ (spiOn .m0 false).proto = .spi ∧ Config.params.maxBlock < 524296 / 8 := by decide

theorem test_witness_I2cReady :
    I2cReady (i2cOn false) (startCmds (i2cOn false)).length ∧ I2cReady (i2cOn true) (rstartCmds (i2cOn true)).length
      ∧ I2cReady (i2cOn true) (stopCmds (i2cOn true)).length
      ∧ I2cReady (i2cOn false) (writeByteCmds (i2cOn false) 0xA0).length
      ∧ I2cReady (i2cOn false) (readByteCmds (i2cOn false) true).length ∧ (i2cOn false).chan.Quiet :=
  ⟨⟨by decide, by decide, by decide, by decide, by decide⟩, ⟨by decide, by decide, by decide, by decide, by decide⟩,
    ⟨by decide, by decide, by decide, by decide, by decide⟩, ⟨by decide, by decide, by decide, by decide, by decide⟩,
    ⟨by decide, by decide, by decide, by decide, by decide⟩, by unfold Chan.Quiet; decide⟩

set_option maxRecDepth 4000 in
/-- The reads of the byte operations are answered. -/
theorem test_witness_I2cAnswers :
    (∃ r c, ((i2cOn false).sent (writeByteCmds (i2cOn false) 0xA0)).chan.readExact 1 = (.ok [r], c))
      ∧ ∃ r c, ((i2cOn false).sent (readByteCmds (i2cOn false) true)).chan.readExact 1 = (.ok [r], c) :=
  ⟨⟨_, _, rfl⟩, ⟨_, _, rfl⟩⟩

theorem test_witness_I2cHelpers :
    (i2cOn true).ch = .opened ∧ (i2cOn true).proto = .i2c ∧ (0x7F : Byte).toNat ≤ 0x7F ∧ (i2cOn true).qcur = 0
      ∧ 16 ≤ (i2cOn true).par.qcap ∧ 9 * (i2cOn true).par.i2cRepeat ≤ (i2cOn true).par.qcap
      ∧ 0 < (i2cOn true).par.i2cRepeat ∧ (withDin (i2cOn false) [false, true]).chan.Quiet
      ∧ (i2cOn false).chan.eng.loopback = false ∧ (i2cOn false).plDir.getLsbD dataInBit = false
      ∧ (withDin (i2cOn false) [false, true]).chan.din = false :: [true] ∧ [(0xAA : Byte)].length ≤ [true].length
      ∧ 8 * 0 ≤ [true].length := by
  unfold Chan.Quiet
  decide

/-- Each clause: an address out of range, a failure at START, at the address, at its acknowledge,
  at the first data byte
written and at the first one read. -/
theorem test_witness_I2cHelpersStopAtAFault :
    0x7F < (0x80 : Byte).toNat
      ∧ (withTurns (i2cOn true) [.fails 0]).chan.turns = .fails 0 :: []
      ∧ (withTurns (i2cOn true) [.answers 0, .fails 0]).chan.turns = .answers 0 :: .fails 0 :: []
      ∧ (withTurns (i2cOn true) [.answers 0, .answers 0, .fails 0]).chan.turns
        = .answers 0 :: .answers 0 :: .fails 0 :: []
      ∧ (withDin (i2cOn true) [false]).chan.incoming = [] ∧ (withDin (i2cOn true) [false]).chan.tx = []
      ∧ (i2cOn true).chan.eng.loopback = false ∧ (i2cOn true).plDir.getLsbD dataInBit = false
      ∧ (withDin (i2cOn true) [false]).chan.din = false :: []
      ∧ (withTurns (i2cOn true) [.answers 0, .answers 0, .answers 1, .fails 0]).chan.turns
        = .answers 0 :: .answers 0 :: .answers (0 + 1) :: .fails 0 :: [] := by
  decide

theorem test_witness_SyncPassesOnTheEcho :
    (jtagAt .idle).ch = .opened ∧ (jtagAt .idle).chan.Quiet ∧ (jtagAt .idle).cap = (jtagAt .idle).chan.sup
      ∧ (jtagAt .idle).room 3 = true := by
  unfold Chan.Quiet
  decide

/-- Each clause: one stale byte (S5) and two; the poll's bound; and the hold,
  with an engine that waits for 65536 bytes. -/
theorem test_witness_HandshakeFailures :
    (withRx (jtagAt .idle) [0x00]).chan.incoming ≠ [] ∧ ([0x00] ++ [(0xFA : Byte), 0xAA]).take 2 ≠ [0xFA, 0xAA]
      ∧ ([0xAA, 0xFA] ++ [(0xFA : Byte), 0xAA]).take 2 ≠ [0xFA, 0xAA]
      ∧ (withTurns (jtagAt .idle) (List.replicate ((if (jtagAt .idle).cap.enh then 2 else 1) + max 1 1) (.answers
        0))).chan.turns
        = List.replicate 3 (.answers 0)
      ∧ (after .mpsseSync (withTurns { jtagAt .idle with par := { Config.params with syncPollLimit := some 0 } }
          (List.replicate 3 (.answers 0)))).map (·.flog) = some [⟨.transport, .mpsseSync, .syncPollTimeout⟩]
      ∧ (withTx (jtagAt .idle) [0x10, 0xFF, 0xFF]).chan.tx = 0x10 :: 0xFF :: 0xFF :: []
      ∧ after .mpsseSync (withTx { jtagAt .idle with par := { Config.params with syncPollLimit := none } } [0x10,
        0xFF, 0xFF])
        = none := by
  decide

theorem test_witness_Opens :
    OpenReady State.reset ∧ 5 ≤ State.reset.par.resetPulses
      ∧ (tmsSeq (List.replicate State.reset.par.resetPulses true)).length ≤ State.reset.par.qcap
      ∧ spiModeSupported State.reset.spiMode = true ∧ (State.reset.i2cThreePhase = true → State.reset.chan.sup.enh
        = true)
      ∧ 0 < State.reset.par.i2cRepeat ∧ 4 + 3 * State.reset.par.i2cRepeat ≤ State.reset.par.qcap
      ∧ State.reset.chan.eng.odLow.getLsbD clockBit = false ∧ State.reset.chan.eng.odLow.getLsbD selectBit
        = false := by
  unfold OpenReady Chan.Quiet
  decide

/-- Each clause: no MPSSE; mode 3; 3-phase on a lesser chip; a query that fails; and an open whose first setup call
fails. -/
theorem test_witness_FailedOpenLeavesDead :
    State.reset.ch = .closed ∧ State.reset.chan.answersQueries = true
      ∧ (withSup State.reset ⟨false, true, false⟩).chan.sup.mpsse = false
      ∧ spiModeSupported ({ State.reset with spiMode := .m3 } : State).spiMode = false
      ∧ ({ withSup State.reset ⟨true, false, false⟩ with i2cThreePhase := true } : State).i2cThreePhase = true
      ∧ (withSup State.reset ⟨true, false, false⟩).chan.sup.enh = false ∧ State.reset.chan.tx = []
      ∧ ([0, 0] : List Nat).length < 3
      ∧ (withTurns State.reset [.answers 0, .answers 0, .fails 0]).chan.turns = [0, 0].map .answers ++ .fails 0 :: []
      ∧ (withTurns State.reset [.answers 0, .answers 0, .answers 0, .fails 0]).chan.answersQueries = true
      ∧ (after (.spiOpen 1000000) (withTurns State.reset [.answers 0, .answers 0, .answers 0, .fails 0])).map
          (fun t => (t.ch, t.answer)) = some (.dead, .fault .transport) := by
  decide

theorem test_witness_CloseAlwaysCloses :
    (jtagAt .idle).ch ≠ .closed ∧ (jtagAt .idle).chan.tx = [] ∧ (jtagAt .idle).chan.accepts = true
      ∧ (withTurns (jtagAt .idle) [.fails 0]).chan.accepts = false := by decide

theorem test_witness_EmitAppendsOneCommand :
    (jtagAt .idle).ch = .opened ∧ (MCmd.pset .low 0x08 0x0B).instr = some (.setLow 0x08 0x0B)
      ∧ cmdMisfit Config.params (.pset .low 0x08 0x0B) = none
        ∧ (jtagAt .idle).cap.opens (cmdGate (.pset .low 0x08 0x0B)) = true
      ∧ (jtagAt .idle).qcur + (encodeCmd (.setLow 0x08 0x0B)).length ≤ (jtagAt .idle).par.qcap
      ∧ Config.params.qcap < 69998 + (encodeCmd (.setLow 0x08 0x0B)).length := by decide

theorem test_witness_EmitRefusesInOrder :
    (jtagAt .idle).ch = .opened ∧ (withSup (jtagAt .idle) ⟨true, false, false⟩).cap.enh = false
      ∧ (jtagAt .idle).cap.od = false ∧ Config.params.divMax < 65536 ∧ [(0x00 : Byte)].length ≠ 2
      ∧ CountMisfits 0 8 1 0 ∧ CountMisfits 9 8 9 8 ∧ CountMisfits 8 7 8 7
        ∧ CountMisfits 65537 Config.params.maxBlock 65537 65536 := by unfold CountMisfits; decide

theorem test_witness_ChannelStateCheck :
    hostOp .qFlush = some .qFlush ∧ (needOf .qFlush).refuses State.reset = some .channelNotOpen
      ∧ (needOf .spiAssert).refuses (jtagAt .idle) = some .wrongProtocol ∧ (needOf .close).refuses State.reset
        = some .notOpen
      ∧ (needOf .jtagOpen).refuses (jtagAt .idle) = some .alreadyOpenOrDead := by decide

/-- A flushing operation that completes with bytes buffered. -/
theorem test_witness_FlushingOperations :
    hostOp .spiAssert = some .spiAssert ∧ flushes .spiAssert = true
      ∧ (after .spiAssert buffered).map (·.flog) = some buffered.flog ∧ buffered.qcur = 2 := by
  decide

/-- A state other than reset has the invariant, and its step answers next. -/
theorem test_witness_StepKeepsTheInvariant : Inv (withTx buffered [0x87]) ∧ ∃ t, step (withTx buffered [0x87])
  = .next t :=
  ⟨⟨by decide, by decide, by decide, by decide, by decide, by decide, by decide, by decide, by decide, by decide,
    by decide, by decide, by decide⟩, ⟨_, rfl⟩⟩

end Sys2Proof.Tests
end

/-! PROOF. What every step keeps (spec/10_state.md R24, R28, R33, R39, R40; 40_queue.md R112;
46_open_sync_close.md R211; 60_exceptions.md R296). Each body of a host operation has one lemma that says what the state
it ends in can be; `Moves` is what one step can do, and the obligations about every step are read off it. -/

namespace Sys2Proof.Machine

/-! ## What holds where a body ends -/

/-- `Q` holds of the state a body ends in with a value, `E` of the one it raises in. -/
def Res.Ensures {α : Type} (r : Res α) (Q E : State → Prop) : Prop :=
  match r with
  | .ok _ t => Q t
  | .raised _ _ t => E t
  | .held _ => True

section Ensures

variable {α β : Type} {r : Res α} {f : α → State → Res β} {Q Q' E E' : State → Prop}

theorem Res.Ensures.mono (h : r.Ensures Q E) (hq : ∀ t, Q t → Q' t) (he : ∀ t, E t → E' t) : r.Ensures Q' E' := by
  cases r with
  | ok a t => exact hq t h
  | raised c i t => exact he t h
  | held g => trivial

theorem Res.Ensures.bind (h : r.Ensures Q E) (hf : ∀ a t, Q t → (f a t).Ensures Q' E) : (r.bind f).Ensures Q' E := by
  cases r with
  | ok a t => exact hf a t h
  | raised c i t => exact h
  | held g => trivial

end Ensures

/-! ## The parts of the invariant -/

/-- The queue's part of `Inv`: cursor and buffer within capacity, the buffer canonical and written below the cursor. -/
structure QueueOk (cap : Nat) (m : Memory) (cur : Nat) : Prop where
  cursor : cur ≤ cap
  canonical : m.wf = true
  inside : ∀ c ∈ m, c.1 < cap
  written : ∀ a < cur, (m.read a).isSome = true

theorem Inv.queueOk {s : State} (h : Inv s) : QueueOk s.par.qcap s.qbuf s.qcur :=
  ⟨h.cursor, h.canonical, h.inside, h.written⟩

theorem QueueOk.emptied {cap cur : Nat} {m : Memory} (h : QueueOk cap m cur) : QueueOk cap m 0 :=
  { h with cursor := Nat.zero_le _, written := nofun }

/-- Storing a run of bytes at the cursor keeps the queue's invariant when the run fits (R110, R111). -/
theorem QueueOk.stored {cap cur : Nat} {m : Memory} {bs : List Byte} (h : QueueOk cap m cur)
    (hfit : cur + bs.length ≤ cap) : QueueOk cap (m.writeList cur bs) (cur + bs.length) where
  cursor := hfit
  canonical := m.writeList_wf cur bs h.canonical
  inside c hc := by
    rcases Memory.mem_writeList hc with ⟨-, hlt⟩ | hold
    · omega
    · exact h.inside c hold
  written a ha := by
    rw [Memory.read_writeList]
    by_cases hcur : cur ≤ a
    · rw [if_pos ⟨hcur, ha⟩, List.getElem?_eq_getElem (by omega)]
      rfl
    · rw [if_neg fun hin => hcur hin.1]
      exact h.written a (Nat.lt_of_not_le hcur)

/-- What no step changes: parameters, SPI and I2C configuration, the chip's capabilities and its marker (R9, R30 to R32,
R96). -/
structure SameConfig (s t : State) : Prop where
  par : t.par = s.par := by rfl
  spiMode : t.spiMode = s.spiMode := by rfl
  spiCsActiveHigh : t.spiCsActiveHigh = s.spiCsActiveHigh := by rfl
  i2cThreePhase : t.i2cThreePhase = s.i2cThreePhase := by rfl
  sup : t.chan.sup = s.chan.sup := by rfl
  marker : t.chan.marker = s.chan.marker := by rfl

theorem SameConfig.trans {s t u : State} (h : SameConfig s t) (k : SameConfig t u) : SameConfig s u :=
  ⟨k.par.trans h.par, k.spiMode.trans h.spiMode, k.spiCsActiveHigh.trans h.spiCsActiveHigh,
    k.i2cThreePhase.trans h.i2cThreePhase, k.sup.trans h.sup, k.marker.trans h.marker⟩

/-- Nothing was raised between the two states: `FLOG` and the configuration are the same, the invariant is kept. -/
structure Steady (s t : State) : Prop extends SameConfig s t where
  flog : t.flog = s.flog := by rfl
  inv : Inv s → Inv t

theorem Steady.refl (s : State) : Steady s s := { inv := id }

theorem Steady.trans {s t u : State} (h : Steady s t) (k : Steady t u) : Steady s u :=
  { h.toSameConfig.trans k.toSameConfig with flog := k.flog.trans h.flog, inv := k.inv ∘ h.inv }

/-- What buffering, flushing and the transport calls can change: the queue, within its invariant; the shadows and the
channel, but not its capabilities and marker; `TAP.known` is lost at most. -/
structure QueueStep (s t : State) : Prop extends SameConfig s t where
  flog : t.flog = s.flog := by rfl
  ch : t.ch = s.ch := by rfl
  proto : t.proto = s.proto := by rfl
  tapCur : t.tapCur = s.tapCur := by rfl
  known : t.tapKnown = true → s.tapKnown = true := by exact id
  endIr : t.endIr = s.endIr := by rfl
  endDr : t.endDr = s.endDr := by rfl
  cap : t.cap = s.cap := by rfl
  queue : QueueOk s.par.qcap s.qbuf s.qcur → QueueOk t.par.qcap t.qbuf t.qcur := by exact id

theorem QueueStep.refl (s : State) : QueueStep s s := {}

theorem QueueStep.trans {s t u : State} (h : QueueStep s t) (k : QueueStep t u) : QueueStep s u :=
  { h.toSameConfig.trans k.toSameConfig with
    flog := k.flog.trans h.flog, ch := k.ch.trans h.ch, proto := k.proto.trans h.proto
    tapCur := k.tapCur.trans h.tapCur, known := h.known ∘ k.known, endIr := k.endIr.trans h.endIr
    endDr := k.endDr.trans h.endDr, cap := k.cap.trans h.cap, queue := k.queue ∘ h.queue }

theorem QueueStep.inv {s t : State} (h : QueueStep s t) (hi : Inv s) : Inv t :=
  { h.queue hi.queueOk with
    stableIr := by rw [h.endIr]; exact hi.stableIr
    stableDr := by rw [h.endDr]; exact hi.stableDr
    closedNone := by rw [h.ch, h.proto]; exact hi.closedNone
    openedSome := by rw [h.ch, h.proto]; exact hi.openedSome
    knownJtag := by rw [h.ch, h.proto]; exact hi.knownJtag ∘ h.known
    mirrorRange := by rw [h.tapCur]; exact hi.mirrorRange
    latched := by rw [h.ch, h.cap, h.sup]; exact hi.latched
    spiChecked := by rw [h.proto, h.spiMode]; exact hi.spiChecked
    i2cChecked := by rw [h.proto, h.i2cThreePhase, h.cap]; exact hi.i2cChecked }

theorem QueueStep.steady {s t : State} (h : QueueStep s t) : Steady s t := { h with inv := h.inv }

theorem QueueStep.withChan {s : State} {c : Chan} (hs : c.sup = s.chan.sup) (hm : c.marker = s.chan.marker) :
    QueueStep s (s.withChan c) := { sup := hs, marker := hm }

theorem QueueStep.append {s : State} {bs : List Byte} (hfit : s.qcur + bs.length ≤ s.par.qcap) :
    QueueStep s (s.append bs) := { queue := fun hq => hq.stored hfit }

theorem QueueStep.emptied (s : State) {c : Chan} (hs : c.sup = s.chan.sup) (hm : c.marker = s.chan.marker) :
    QueueStep s { s with qcur := 0, chan := c } := { sup := hs, marker := hm, queue := QueueOk.emptied }

/-! ## Bodies made of buffering and transport calls -/

section Bodies

variable {α β : Type} {s : State} {r : Res α} {f : α → State → Res β}

/-- The body does no more than buffer, flush and call the transport. -/
def Res.Steps {α : Type} (s : State) (r : Res α) : Prop := r.Ensures (QueueStep s) (QueueStep s)

/-- The same, with the queue empty when the body completes. -/
def Res.Drains {α : Type} (s : State) (r : Res α) : Prop :=
  r.Ensures (fun t => QueueStep s t ∧ t.qcur = 0) (QueueStep s)

theorem Res.Drains.steps (h : r.Drains s) : r.Steps s := h.mono (fun _ ht => ht.1) fun _ => id

theorem Res.Steps.after {s' : State} (hs : QueueStep s' s) (h : r.Steps s) : r.Steps s' :=
  h.mono (fun _ => hs.trans) fun _ => hs.trans

theorem Res.Drains.after {s' : State} (hs : QueueStep s' s) (h : r.Drains s) : r.Drains s' :=
  h.mono (fun _ ht => ⟨hs.trans ht.1, ht.2⟩) fun _ => hs.trans

theorem Res.Steps.bind (h : r.Steps s) (hf : ∀ a t, (f a t).Steps t) : (r.bind f).Steps s :=
  Res.Ensures.bind h fun a t ht => (hf a t).after ht

theorem Res.Steps.bind_drains (h : r.Steps s) (hf : ∀ a t, (f a t).Drains t) : (r.bind f).Drains s :=
  Res.Ensures.bind h fun a t ht => (hf a t).after ht

/-- After a flush, what leaves an empty queue empty. -/
theorem Res.Drains.bind (h : r.Drains s) (hf : ∀ a t, t.qcur = 0 → (f a t).Drains t) : (r.bind f).Drains s :=
  Res.Ensures.bind h fun a t ht => (hf a t ht.2).after ht.1

theorem Res.ok_steps (a : α) (s : State) : (Res.ok a s).Steps s := QueueStep.refl s

theorem Res.ok_drains (a : α) (h : s.qcur = 0) : (Res.ok a s).Drains s := ⟨QueueStep.refl s, h⟩

theorem Res.raised_drains (c : FaultCode) (i : Detail) (s : State) : (Res.raised c i s : Res α).Drains s :=
  QueueStep.refl s

/-- A transport call's body, that leaves the queue alone: it keeps an empty queue empty. -/
theorem Res.Ensures.drains (h : r.Ensures (fun t => QueueStep s t ∧ t.qcur = s.qcur) (QueueStep s)) (hq : s.qcur = 0) :
    r.Drains s := h.mono (fun _ ht => ⟨ht.1, ht.2.trans hq⟩) fun _ => id

theorem emit_steps (bs : List Byte) (s : State) : (emit bs s).Steps s := by
  rcases emit_cases bs s with ⟨hfit, he⟩ | ⟨-, he⟩ <;> rw [he]
  · exact QueueStep.append hfit
  · exact QueueStep.refl s

theorem emitAll_steps (l : List (List Byte)) (s : State) : (emitAll l s).Steps s := by
  induction l generalizing s with
  | nil => exact Res.ok_steps _ s
  | cons bs l ih => exact (emit_steps bs s).bind fun _ t => ih t

theorem flush_drains (s : State) : (flush s).Drains s := by
  rcases flush_cases s with ⟨hq, hf⟩ | ⟨-, ⟨-, hf⟩ | ⟨-, hf⟩⟩ <;> rw [hf]
  · exact Res.ok_drains _ hq
  · exact ⟨QueueStep.emptied s (by simp) (by simp), rfl⟩
  · exact QueueStep.emptied s (by simp) (by simp)

theorem readExact_ensures (n : Nat) (s : State) :
    (readExact n s).Ensures (fun t => QueueStep s t ∧ t.qcur = s.qcur) (QueueStep s) := by
  have hs := s.chan.readExact_sup n
  have hm := s.chan.readExact_marker n
  rcases readExact_cases n s with ⟨bs, c, hc, hr⟩ | ⟨got, c, hc, hr⟩ <;> rw [hc] at hs hm <;> rw [hr]
  · exact ⟨QueueStep.withChan hs hm, rfl⟩
  · exact QueueStep.withChan hs hm

theorem readExact_steps (n : Nat) (s : State) : (readExact n s).Steps s :=
  (readExact_ensures n s).mono (fun _ ht => ht.1) fun _ => id

theorem count_ensures (s : State) : (count s).Ensures (fun t => QueueStep s t ∧ t.qcur = s.qcur) (QueueStep s) := by
  have hs := s.chan.count_sup
  have hm := s.chan.count_marker
  rcases count_cases s with ⟨n, c, hc, hr⟩ | ⟨c, hc, hr⟩ <;> rw [hc] at hs hm <;> rw [hr]
  · exact ⟨QueueStep.withChan hs hm, rfl⟩
  · exact QueueStep.withChan hs hm

theorem count_steps (s : State) : (count s).Steps s := (count_ensures s).mono (fun _ ht => ht.1) fun _ => id

theorem setupCall_steps {f : Chan → Bool × Chan} (i : Detail) {s : State} (hs : (f s.chan).2.sup = s.chan.sup)
    (hm : (f s.chan).2.marker = s.chan.marker) : (setupCall f i s).Steps s := by
  rcases setupCall_cases f i s with ⟨-, h⟩ | ⟨-, h⟩ <;> rw [h]
  · exact QueueStep.withChan hs hm
  · exact QueueStep.withChan hs hm

theorem setl_steps (v d : Byte) (s : State) : (setl v d s).Steps s :=
  (emit_steps _ s).bind fun _ _ => ({} : QueueStep _ _)

/-! ## Clock, MPSSE.EMIT, SPI -/

theorem clkConfigure_drains (hz : Nat) (s : State) : (clkConfigure hz s).Drains s :=
  (emitAll_steps _ s).bind_drains fun _ t => (flush_drains t).bind fun _ _ hu => Res.ok_drains _ hu

theorem QueueStep.shadow (cmd : MCmd) (s : State) : QueueStep s (s.shadow cmd) := by
  cases cmd
  case pset o v d => cases o <;> exact {}
  all_goals exact QueueStep.refl s

theorem mpsseEmit_steps (cmd : MCmd) (s : State) : (mpsseEmit cmd s).Steps s :=
  (emit_steps _ s).bind fun _ t => QueueStep.shadow cmd t

theorem csSeq_steps (level : Bool) (s : State) : (csSeq level s).Steps s :=
  (emitAll_steps _ s).bind fun _ _ => ({} : QueueStep _ _)

theorem spiAssert_drains (s : State) : (spiAssert s).Drains s := (csSeq_steps _ s).bind_drains fun _ => flush_drains

theorem spiClear_drains (s : State) : (spiClear s).Drains s := (csSeq_steps _ s).bind_drains fun _ => flush_drains

/-- The end of a transfer: a flush, a read, a value made of the response. -/
theorem flush_readExact_drains {γ : Type} (n : Nat) (g : List Byte → γ) (s : State) :
    ((flush s).bind fun _ t => (readExact n t).bind fun resp u => .ok (g resp) u).Drains s :=
  (flush_drains s).bind fun _ t ht =>
    ((readExact_ensures n t).drains ht).bind fun _ _ hu => Res.ok_drains _ hu

theorem spiTransact_drains (n : Nat) (out : List Byte) (s : State) : (spiTransact n out s).Drains s :=
  (csSeq_steps _ s).bind_drains fun _ t => (emitAll_steps _ t).bind_drains fun _ u =>
    (csSeq_steps _ u).bind_drains fun _ v => (emit_steps _ v).bind_drains fun _ w => flush_readExact_drains _ _ w

theorem spiWrite_drains (n : Nat) (out : List Byte) (s : State) : (spiWrite n out s).Drains s :=
  (emitAll_steps _ s).bind_drains fun _ => flush_drains

theorem spiRead_drains (n : Nat) (s : State) : (spiRead n s).Drains s :=
  (emitAll_steps _ s).bind_drains fun _ t => flush_readExact_drains _ _ t

/-! ## I2C -/

theorem i2cPhase_steps (scl : Bool) (sda : Sda) (s : State) : (i2cPhase scl sda s).Steps s := setl_steps _ _ s

theorem i2cPhases_steps (k : Nat) (scl : Bool) (sda : Sda) (s : State) : (i2cPhases k scl sda s).Steps s := by
  induction k generalizing s with
  | zero => exact Res.ok_steps _ s
  | succ k ih => exact (i2cPhase_steps scl sda s).bind fun _ t => ih t

theorem i2cHold_steps (scl : Bool) (sda : Sda) (s : State) : (i2cHold scl sda s).Steps s := i2cPhases_steps _ scl sda s

theorem i2cHolds_drains (ps : List (Bool × Sda)) (s : State) : (i2cHolds ps s).Drains s := by
  induction ps generalizing s with
  | nil => exact flush_drains s
  | cons p ps ih => exact (i2cHold_steps p.1 p.2 s).bind_drains fun _ t => ih t

theorem i2cWriteByte_drains (v : Byte) (s : State) : (i2cWriteByte v s).Drains s :=
  (i2cPhase_steps _ _ s).bind_drains fun _ t => (emit_steps _ t).bind_drains fun _ u =>
    (i2cPhase_steps _ _ u).bind_drains fun _ w => (emitAll_steps _ w).bind_drains fun _ x =>
      flush_readExact_drains _ _ x

theorem i2cReadByte_drains (ack : Bool) (s : State) : (i2cReadByte ack s).Drains s :=
  (i2cPhase_steps _ _ s).bind_drains fun _ t => (emit_steps _ t).bind_drains fun _ u =>
    (i2cPhase_steps _ _ u).bind_drains fun _ w => (emit_steps _ w).bind_drains fun _ x =>
      (i2cPhase_steps _ _ x).bind_drains fun _ y => (emit_steps _ y).bind_drains fun _ z =>
        flush_readExact_drains _ (byteOf · 0) z

theorem i2cReadMany_steps (n : Nat) (acc : List Byte) (s : State) : (i2cReadMany n acc s).Steps s := by
  induction n generalizing acc s with
  | zero => exact Res.ok_steps _ s
  | succ n ih => exact (i2cReadByte_drains _ s).steps.bind fun _ t => ih _ t

theorem i2cWriteMany_steps (bs : List Byte) (k : Nat) (s : State) : (i2cWriteMany bs k s).Steps s := by
  induction bs generalizing k s with
  | nil => exact Res.ok_steps _ s
  | cons b bs ih =>
    refine (i2cWriteByte_drains b s).steps.bind fun acked t => ?_
    cases acked with
    | true => exact ih (k + 1) t
    | false => exact Res.ok_steps _ t

/-- Both transaction helpers end with STOP, whose flush leaves the queue empty (R188, R189). -/
theorem stop_drains {γ : Type} (a : γ) (s : State) : ((i2cHolds stopPhases s).bind fun _ t => .ok a t).Drains s :=
  (i2cHolds_drains _ s).bind fun _ _ ht => Res.ok_drains a ht

theorem i2cXread_drains (addr : Byte) (count : Nat) (s : State) : (i2cXread addr count s).Drains s := by
  refine (i2cHolds_drains _ s).steps.bind_drains fun _ t =>
    (i2cWriteByte_drains _ t).steps.bind_drains fun acked u => ?_
  cases acked with
  | true => exact (i2cReadMany_steps count [] u).bind_drains fun data v => stop_drains (some data) v
  | false => exact stop_drains none u

theorem i2cXwrite_drains (addr : Byte) (data : List Byte) (s : State) : (i2cXwrite addr data s).Drains s := by
  refine (i2cHolds_drains _ s).steps.bind_drains fun _ t =>
    (i2cWriteByte_drains _ t).steps.bind_drains fun acked u => ?_
  cases acked with
  | true => exact (i2cWriteMany_steps data 0 u).bind_drains fun k v => stop_drains (some k) v
  | false => exact stop_drains none u

/-! ## The handshake and the setup calls of an open -/

theorem baseline_steps (s : State) : (baseline s).Steps s := by
  unfold baseline
  split
  · exact (emitAll_steps _ s).bind fun _ t => (flush_drains t).steps
  · exact Res.ok_steps _ s

theorem pollBounded_drains (k : Nat) {s : State} (h : s.qcur = 0) : (pollBounded k s).Drains s := by
  induction k generalizing s with
  | zero =>
    refine ((count_ensures s).drains h).bind fun n t ht => ?_
    split
    · exact Res.raised_drains _ _ t
    · exact Res.ok_drains _ ht
  | succ k ih =>
    refine ((count_ensures s).drains h).bind fun n t ht => ?_
    split
    · exact ih ht
    · exact Res.ok_drains _ ht

theorem pollUnbounded_drains (ts : List Turn) {s : State} (h : s.qcur = 0) : (pollUnbounded ts s).Drains s := by
  induction ts generalizing s with
  | nil =>
    refine ((count_ensures s).drains h).bind fun n t ht => ?_
    split
    · trivial
    · exact Res.ok_drains _ ht
  | cons turn ts ih =>
    refine ((count_ensures s).drains h).bind fun n t ht => ?_
    split
    · exact ih ht
    · exact Res.ok_drains _ ht

theorem poll_drains {s : State} (h : s.qcur = 0) : (poll s).Drains s := by
  unfold poll
  split
  · exact pollBounded_drains _ h
  · exact pollUnbounded_drains _ h

theorem verify_drains {s : State} (h : s.qcur = 0) : (verify s).Drains s := by
  refine ((readExact_ensures 2 s).drains h).bind fun r t ht => ?_
  split
  · exact Res.ok_drains _ ht
  · exact Res.raised_drains _ _ t

theorem mpsseSync_drains (s : State) : (mpsseSync s).Drains s :=
  (baseline_steps s).bind_drains fun _ t => (emit_steps _ t).bind_drains fun _ u =>
    (flush_drains u).bind fun _ _ hv => (poll_drains hv).bind fun _ _ hw => verify_drains hw

theorem queryCaps_steps (s : State) : (queryCaps s).Steps s :=
  (setupCall_steps _ (by simp) (by simp)).bind fun _ _ =>
    (setupCall_steps _ (by simp) (by simp)).bind fun _ _ => setupCall_steps _ (by simp) (by simp)

theorem openSetup_steps (s : State) : (openSetup s).Steps s :=
  (setupCall_steps _ (by simp) (by simp)).bind fun _ _ => (setupCall_steps _ (by simp) (by simp)).bind fun _ _ =>
    (setupCall_steps _ (by simp) (by simp)).bind fun _ _ => (setupCall_steps _ (by simp) (by simp)).bind fun _ _ =>
      setupCall_steps _ (by simp) (by simp)

/-- What an open does between its setup calls and the handshake: queue and shadows cleared, the mirror not known
(R206). -/
theorem QueueStep.blank (s : State) : QueueStep s { s with qcur := 0, plVal := 0, plDir := 0, tapKnown := false } :=
  { known := nofun, queue := QueueOk.emptied }

/-- From the capability latch on, the common part of an open only buffers, flushes and calls (R206). -/
theorem openCommon_steps (s : State) : (openCommon s).Steps s.latchCaps :=
  (openSetup_steps s.latchCaps).bind fun _ t =>
    (mpsseSync_drains _).steps.after (QueueStep.blank t)

end Bodies

/-! ## Bodies that move the mirror -/

/-- A stable state is one of the path table's targets (R27, R134). -/
theorem stable_mem_pathTargets {t : Tap} (h : stable t = true) : t ∈ Tap.pathTargets := by
  cases t
  case reset | idle | drPause | irPause => decide
  all_goals cases h

/-- The path table records only its targets (R134). -/
theorem mem_pathTargets_of_needPath {src dst : Tap} (h : needPath src dst = none) : dst ∈ Tap.pathTargets := by
  have hsome : (Tap.pathBits src dst).isSome = true := check_eq_none.1 h
  cases dst
  case reset | idle | drPause | irPause | drShift | irShift => decide
  all_goals cases src <;> cases hsome

theorem Steady.mirror {s u : State} {dst : Tap} (h : QueueStep s u) (hd : Inv s → dst ∈ Tap.pathTargets) :
    Steady s { u with tapCur := dst } :=
  { h with inv := fun hi => { h.inv hi with mirrorRange := hd hi } }

theorem tapGoto_ensures {dst : Tap} (s : State) (hd : dst ∈ Tap.pathTargets) :
    (tapGoto dst s).Ensures (fun t => Steady s t ∧ t.qcur = 0) (QueueStep s) :=
  Res.Ensures.bind (emit_steps _ s) fun _ t ht => Res.Ensures.bind ((flush_drains t).after ht) fun _ _ hu =>
    ⟨Steady.mirror hu.1 fun _ => hd, hu.2⟩

theorem scan_ensures (shift exit1 : Tap) {fin : Tap} (n : Nat) (out : List Byte) (s : State)
    (hfin : Inv s → stable fin = true) :
    (scan shift exit1 fin n out s).Ensures (fun t => Steady s t ∧ t.qcur = 0) (QueueStep s) :=
  Res.Ensures.bind (emitAll_steps _ s) fun _ t ht => Res.Ensures.bind ((flush_drains t).after ht) fun _ u hu =>
    Res.Ensures.bind (((readExact_ensures _ u).drains hu.2).after hu.1) fun _ _ hv =>
      ⟨Steady.mirror hv.1 fun hi => stable_mem_pathTargets (hfin hi), hv.2⟩

theorem jtagReset_ensures {s : State} (hc : s.ch = .opened) (hp : s.proto = .jtag) :
    (jtagReset s).Ensures (fun t => Steady s t ∧ t.qcur = 0) (QueueStep s) :=
  Res.Ensures.bind (emit_steps _ s) fun _ t ht => Res.Ensures.bind ((flush_drains t).after ht) fun _ u hu => by
    obtain ⟨hu, hq⟩ := hu
    have hknown : u.proto = .jtag ∧ u.ch ≠ .closed := ⟨hu.proto.trans hp, by simp [hu.ch, hc]⟩
    exact ⟨{ hu with inv := fun hi =>
      { hu.inv hi with mirrorRange := List.mem_cons_self, knownJtag := fun _ => hknown } }, hq⟩

/-! ## Opens -/

/-- What an open has done where it ends or raises, from the capability latch on: the invariant is kept, the capabilities
are latched and hold MPSSE, and the mirror is not known (R206, R211). -/
structure Opening (s u : State) : Prop extends Steady s u where
  latched : u.cap = u.chan.sup ∧ u.cap.mpsse = true
  unknown : Inv s → u.tapKnown = false

theorem Opening.latchCaps {s : State} (hc : s.ch = .closed) (hm : s.chan.sup.mpsse = true) :
    Opening s s.latchCaps where
  inv hi := { hi with
    latched := fun hn => absurd hc hn
    i2cChecked := fun hp => by simp [hi.closedNone hc] at hp }
  latched := ⟨rfl, hm⟩
  unknown hi := Bool.eq_false_iff.2 fun hk => (hi.knownJtag hk).2 hc

theorem Opening.step {s t u : State} (h : Opening s t) (hq : QueueStep t u) : Opening s u :=
  { h.toSteady.trans hq.steady with
    latched := by rw [hq.cap, hq.sup]; exact h.latched
    unknown := fun hi => Bool.eq_false_iff.2 fun hk => Bool.eq_false_iff.1 (h.unknown hi) (hq.known hk) }

/-- The end states an open under JTAG sets (R207). -/
theorem Opening.endIdle {s u : State} (h : Opening s u) : Opening s { u with endIr := .idle, endDr := .idle } :=
  { h with inv := fun hi => { h.inv hi with stableIr := rfl, stableDr := rfl } }

/-- The channel becomes open for a protocol whose configuration has been checked (R207 to R209). -/
theorem Opening.enter {s u : State} {p : Proto} (h : Opening s u) (hp : p ≠ .none)
    (hspi : p = .spi → spiModeSupported s.spiMode = true)
    (hi2c : p = .i2c → s.i2cThreePhase = true → s.chan.sup.enh = true) :
    Opening s { u with ch := .opened, proto := p } :=
  { h with
    inv := fun hi => { h.inv hi with
      closedNone := nofun
      openedSome := fun _ => hp
      knownJtag := fun hk => by simp [h.unknown hi] at hk
      latched := fun _ => h.latched
      spiChecked := fun hs => h.spiMode ▸ hspi hs
      i2cChecked := fun hs ht => by
        rw [h.latched.1, h.sup]
        exact hi2c hs (h.i2cThreePhase ▸ ht) } }

section OpenBodies

variable {α β : Type} {s t : State} {r : Res α} {f : α → State → Res β} {Q : State → Prop}

/-- An open goes on after a part that buffers, flushes and calls. -/
theorem Opening.bind (h : Opening s t) (hr : r.Steps t) (hf : ∀ a u, Opening s u → (f a u).Ensures Q (Opening s)) :
    (r.bind f).Ensures Q (Opening s) :=
  Res.Ensures.bind (hr.mono (fun _ => h.step) fun _ => h.step) hf

/-- An open goes on after a flush. -/
theorem Opening.bind_flush {f : Unit → State → Res β} (h : Opening s t)
    (hf : ∀ u, Opening s u → u.qcur = 0 → (f () u).Ensures Q (Opening s)) : ((flush t).bind f).Ensures Q (Opening s) :=
  Res.Ensures.bind ((flush_drains t).mono (Q' := fun u => Opening s u ∧ u.qcur = 0)
    (fun _ hu => ⟨h.step hu.1, hu.2⟩) fun _ => h.step) fun _ u hu => hf u hu.1 hu.2

theorem jtagOpen_ensures (hz : Nat) (hc : s.ch = .closed) (hm : s.chan.sup.mpsse = true) :
    (jtagOpen hz s).Ensures (fun t => Steady s t ∧ t.qcur = 0) (Opening s) :=
  (Opening.latchCaps hc hm).bind (openCommon_steps s) fun _ t ht => ht.bind (clkConfigure_drains hz t).steps
    fun _ u hu => hu.bind (emit_steps _ u) fun _ v hv => hv.bind (setl_steps _ _ v) fun _ _ hw =>
      hw.bind_flush fun x hx _ => by
        have hx' : Opening s { x with endIr := .idle, endDr := .idle, ch := .opened, proto := .jtag } :=
          hx.endIdle.enter (p := .jtag) nofun nofun nofun
        exact Res.Ensures.bind (jtagReset_ensures rfl rfl |>.mono (Q' := fun y => Steady s y ∧ y.qcur = 0)
          (fun _ hy => ⟨hx'.toSteady.trans hy.1, hy.2⟩) fun _ => hx'.step) fun _ _ hy => hy

theorem spiOpen_ensures (hz : Nat) (hc : s.ch = .closed) (hm : s.chan.sup.mpsse = true)
    (hmode : spiModeSupported s.spiMode = true) :
    (spiOpen hz s).Ensures (fun t => Steady s t ∧ t.qcur = 0) (Opening s) :=
  (Opening.latchCaps hc hm).bind (openCommon_steps s) fun _ t ht => ht.bind (clkConfigure_drains hz t).steps
    fun _ u hu => hu.bind (emit_steps _ u) fun _ v hv => hv.bind (setl_steps _ _ v) fun _ _ hw =>
      hw.bind_flush fun _ hx hq => ⟨(hx.enter (p := .spi) nofun (fun _ => hmode) nofun).toSteady, hq⟩

theorem i2cOpen_ensures (hz : Nat) (hc : s.ch = .closed) (hm : s.chan.sup.mpsse = true)
    (henh : s.i2cThreePhase = true → s.chan.sup.enh = true) :
    (i2cOpen hz s).Ensures (fun t => Steady s t ∧ t.qcur = 0) (Opening s) :=
  (Opening.latchCaps hc hm).bind (openCommon_steps s) fun _ t ht => ht.bind (emitAll_steps _ t) fun _ u hu =>
    hu.bind (clkConfigure_drains _ u).steps fun _ v hv => hv.bind (emitAll_steps _ v) fun _ w hw =>
      hw.bind (i2cHold_steps _ _ w) fun _ _ hx =>
        hx.bind_flush fun _ hy hq => ⟨(hy.enter (p := .i2c) nofun nofun fun _ => henh).toSteady, hq⟩

end OpenBodies

/-! ## Fault entry (R296) -/

theorem Inv.logged {s : State} (h : Inv s) (code : FaultCode) (op : HostOp) (info : Detail) :
    Inv (s.logged code op info) := { h with }

theorem Inv.answering {s : State} (h : Inv s) (a : Answer) : Inv (s.answering a) := { h with }

/-- Fault entry of an operation that is no open: a channel that has died was not closed. -/
theorem Inv.faultLate {s : State} (h : Inv s) {code : FaultCode} (op : HostOp) (info : Detail)
    (hc : code = .synchronization → s.ch ≠ .closed) : Inv (faultLate false op code info s) := by
  have hknown : ∀ b, (s.tapKnown && b) = true → s.tapKnown = true := fun _ hk => (Bool.and_eq_true_iff.1 hk).1
  by_cases hcode : code = .synchronization
  · subst hcode
    exact { h.queueOk.emptied, h with
      closedNone := nofun
      openedSome := nofun
      knownJtag := fun hk => ⟨(h.knownJtag (hknown _ hk)).1, nofun⟩
      latched := fun _ => h.latched (hc rfl) }
  · have hch : (Machine.faultLate false op code info s).ch = s.ch := by simp [Machine.faultLate, hcode]
    exact { h.queueOk.emptied, h with
      closedNone := by rw [hch]; exact h.closedNone
      openedSome := by rw [hch]; exact h.openedSome
      knownJtag := fun hk => by rw [hch]; exact h.knownJtag (hknown _ hk)
      latched := by rw [hch]; exact h.latched }

/-- Fault entry of an open after its first `set_bit_mode`: the channel is dead, of no protocol (R206, R296). -/
theorem Opening.inv_faultLate {s u : State} (h : Opening s u) (hi : Inv s) (op : HostOp) (code : FaultCode)
    (info : Detail) : Inv (faultLate true op code info u) :=
  { (h.inv hi).queueOk.emptied, h.inv hi with
    closedNone := nofun
    openedSome := nofun
    knownJtag := fun hk => by simp [faultLate, h.unknown hi] at hk
    latched := fun _ => h.latched
    spiChecked := nofun
    i2cChecked := nofun }

/-! ## What one step can do -/

/-- What one step can do: `FLOG` grows by one record at most, the configuration stays, the invariant is kept. -/
structure Moves (s t : State) : Prop extends SameConfig s t where
  log : t.flog = s.flog ∨ ∃ f, t.flog = s.flog ++ [f]
  inv : Inv s → Inv t

theorem Moves.refl (s : State) : Moves s s := { log := .inl rfl, inv := id }

theorem Steady.moves {s t u : State} (h : Steady s t) (k : Moves t u) : Moves s u :=
  { h.toSameConfig.trans k.toSameConfig with log := h.flog ▸ k.log, inv := k.inv ∘ h.inv }

/-- What one host operation can do: also, a flushing one that raised nothing leaves the queue empty (R40, D12). -/
structure HostStep (op : HostOp) (s t : State) : Prop extends Moves s t where
  drained : flushes op = true → t.flog = s.flog → t.qcur = 0

theorem Steady.hostStep {op : HostOp} {s t u : State} (h : Steady s t) (k : HostStep op t u) : HostStep op s u :=
  { h.moves k.toMoves with drained := fun hf hl => k.drained hf (hl.trans h.flog.symm) }

/-- An operation that completes. -/
theorem Steady.completes {op : HostOp} {s t : State} (h : Steady s t) (hq : flushes op = true → t.qcur = 0)
    (a : Answer) : HostStep op s (t.answering a) :=
  { h with log := .inl h.flog, inv := fun hi => (h.inv hi).answering a, drained := fun hf _ => hq hf }

/-- An operation that takes a fault: one record, whatever the queue holds. -/
theorem SameConfig.faults {op : HostOp} {s t : State} {f : FaultRec} (h : SameConfig s t) (hl : t.flog = s.flog ++ [f])
    (hi : Inv s → Inv t) : HostStep op s t :=
  { h with log := .inr ⟨f, hl⟩, inv := hi, drained := fun _ hs => by simp [hl] at hs }

theorem HostStep.logged (op : HostOp) (s : State) (code : FaultCode) (info : Detail) :
    HostStep op s (s.logged code op info) := SameConfig.faults {} rfl fun hi => hi.logged code op info

theorem Steady.faultLate {s u : State} (h : Steady s u) (opening : Bool) (op : HostOp) (code : FaultCode)
    (info : Detail) (hi : Inv s → Inv (faultLate opening op code info u)) :
    HostStep op s (faultLate opening op code info u) :=
  SameConfig.faults (h.toSameConfig.trans {}) (congrArg (· ++ [_]) h.flog) hi

/-! ## Host operations -/

section HostOps

variable {α : Type} {op : HostOp} {pre : State → Option (FaultCode × Detail)} {body : State → Res α}
  {give : α → Answer} {s t : State} {r : Res α}

/-- Where a body may raise: nothing was logged or configured yet, and fault entry keeps the invariant. -/
def Faultable (op : HostOp) (s u : State) : Prop :=
  Steady s u ∧ ∀ c i, Inv s → Inv (faultLate (opIsOpen op) op c i u)

theorem QueueStep.faultable {u : State} (hop : opIsOpen op = false) (hc : s.ch = .opened) (h : QueueStep s u) :
    Faultable op s u :=
  ⟨h.steady, fun c i hi => hop ▸ (h.inv hi).faultLate op i fun _ => by simp [h.ch, hc]⟩

theorem Opening.faultable {u : State} (hop : opIsOpen op = true) (h : Opening s u) : Faultable op s u :=
  ⟨h.toSteady, fun c i hi => hop ▸ h.inv_faultLate hi op c i⟩

/-- What the body of a host operation does: it completes, a flushing one with the queue empty; or it raises where fault
entry keeps the invariant. -/
def BodyKeeps {α : Type} (op : HostOp) (s : State) (r : Res α) : Prop :=
  r.Ensures (fun t => Steady s t ∧ (flushes op = true → t.qcur = 0)) (Faultable op s)

theorem BodyKeeps.of_ensures (hop : opIsOpen op = false) (hc : s.ch = .opened)
    (h : r.Ensures (fun t => Steady s t ∧ t.qcur = 0) (QueueStep s)) : BodyKeeps op s r :=
  h.mono (fun _ ht => ⟨ht.1, fun _ => ht.2⟩) fun _ => QueueStep.faultable hop hc

theorem BodyKeeps.of_drains (hop : opIsOpen op = false) (hc : s.ch = .opened) (h : r.Drains s) : BodyKeeps op s r :=
  of_ensures hop hc (h.mono (fun _ ht => ⟨ht.1.steady, ht.2⟩) fun _ => id)

theorem BodyKeeps.of_steps (hop : opIsOpen op = false) (hf : flushes op = false) (hc : s.ch = .opened)
    (h : r.Steps s) : BodyKeeps op s r :=
  h.mono (fun _ ht => ⟨ht.steady, by simp [hf]⟩) fun _ => QueueStep.faultable hop hc

theorem BodyKeeps.of_steady (hf : flushes op = false) (h : Steady s t) (a : α) : BodyKeeps op s (.ok a t) :=
  ⟨h, by simp [hf]⟩

theorem BodyKeeps.of_opening (hop : opIsOpen op = true)
    (h : r.Ensures (fun t => Steady s t ∧ t.qcur = 0) (Opening s)) : BodyKeeps op s r :=
  h.mono (fun _ ht => ⟨ht.1, fun _ => ht.2⟩) fun _ => Opening.faultable hop

/-- A host operation, from what its body does. -/
theorem runOp_hostStep (hb : pre s = none → BodyKeeps op s (body s)) (h : runOp op pre body give s = .next t) :
    HostStep op s t := by
  rcases runOp_cases op pre body give s t h with
    ⟨c, i, -, rfl⟩ | ⟨hpre, a, u, hu, rfl⟩ | ⟨hpre, c, i, u, hu, rfl⟩
  · exact HostStep.logged op s c i
  · have hok := hb hpre
    rw [hu] at hok
    exact hok.1.completes hok.2 _
  · have hraise := hb hpre
    rw [hu] at hraise
    exact hraise.1.faultLate _ op c i (hraise.2 c i)

/-- An open, from what its body does after the capability queries. -/
theorem runOpen_hostStep (hb : ∀ u : State, u.ch = .closed → pre u = none → BodyKeeps op u (body u))
    (h : runOpen op pre body give s = .next t) : HostStep op s t := by
  unfold runOpen at h
  by_cases hc : s.ch = .closed
  · have hneed : needClosed s = none := by simp [needClosed, hc]
    have hqueries := queryCaps_steps s
    rcases queryCaps_cases s with ⟨c, hq, -⟩ | ⟨i, c, hq, -⟩
    · rw [hq] at hqueries
      simp only [hneed, hq] at h
      exact Steady.hostStep (QueueStep.steady hqueries) (runOp_hostStep (hb (s.withChan c) hc) h)
    · rw [hq] at hqueries
      simp only [hneed, hq, takeFault] at h
      cases h
      exact (QueueStep.steady hqueries).faultLate false op .transport i fun hi =>
        (QueueStep.inv hqueries hi).faultLate op i nofun
  · have hneed : needClosed s = some (.configuration, .reason .alreadyOpenOrDead) := by simp [needClosed, check, hc]
    simp only [hneed, takeFault] at h
    cases h
    exact HostStep.logged op s _ _

end HostOps

/-! ## Checks that ask for an open channel (R293) -/

theorem opened_of_orElse {a b : Option (FaultCode × Detail)} {s : State} (ha : a = none → s.ch = .opened)
    (h : orElse a b = none) : s.ch = .opened := ha (orElse_eq_none.1 h).1

theorem opened_of_needOpen {s : State} (h : needOpen s = none) : s.ch = .opened := needOpen_eq_none.1 h

theorem opened_of_needProto {p : Proto} {s : State} (h : needProto p s = none) : s.ch = .opened :=
  opened_of_orElse opened_of_needOpen h

theorem mpsse_of_needMpsse {s : State} (h : needMpsse s = none) : s.chan.sup.mpsse = true := check_eq_none.1 h

/-! ## The operations one by one -/

/-- The pure lookups change nothing (R132). -/
theorem execTapNext_hostStep {src : Tap} {b : Bool} {s t : State} (h : execTapNext src b s = .next t) :
    HostStep .tapNext s t := by
  unfold execTapNext at h
  exact runOp_hostStep (fun _ => .of_steady rfl (Steady.refl s) _) h

theorem execTapPath_hostStep {src dst : Tap} {s t : State} (h : execTapPath src dst s = .next t) :
    HostStep .tapPath s t := by
  unfold execTapPath at h
  exact runOp_hostStep (fun _ => .of_steady rfl (Steady.refl s) _) h

theorem execJtagSetEndIr_hostStep {dst : Tap} {s t : State} (h : execJtagSetEndIr dst s = .next t) :
    HostStep .jtagSetEndIr s t := by
  unfold execJtagSetEndIr at h
  refine runOp_hostStep (fun hp => ?_) h
  refine .of_steady rfl ?_ _
  exact { inv := fun hi => { hi with stableIr := check_eq_none.1 (orElse_eq_none.1 hp).2 } }

theorem execJtagSetEndDr_hostStep {dst : Tap} {s t : State} (h : execJtagSetEndDr dst s = .next t) :
    HostStep .jtagSetEndDr s t := by
  unfold execJtagSetEndDr at h
  refine runOp_hostStep (fun hp => ?_) h
  refine .of_steady rfl ?_ _
  exact { inv := fun hi => { hi with stableDr := check_eq_none.1 (orElse_eq_none.1 hp).2 } }

/-- CLOSE closes the channel also when its call fails (R212). -/
theorem execClose_hostStep {s t : State} (h : execClose s = .next t) : HostStep .close s t := by
  have hclosed : Steady s { s with
      qcur := 0, chan := (s.chan.setBitMode 0 .reset).2, ch := .closed, proto := .none, tapKnown := false } :=
    { sup := by simp
      marker := by simp
      inv := fun hi => { hi.queueOk.emptied, hi with
        closedNone := fun _ => rfl
        openedSome := nofun
        knownJtag := nofun
        latched := fun hc => absurd rfl hc
        spiChecked := nofun
        i2cChecked := nofun } }
  rcases runOp_cases _ _ _ _ s t h with ⟨c, i, -, rfl⟩ | ⟨-, a, u, hu, rfl⟩ | ⟨-, c, i, u, hu, rfl⟩
  · exact HostStep.logged _ s c i
  · simp only [closeChannel] at hu
    split at hu <;> cases hu
    exact hclosed.completes (fun _ => rfl) _
  · simp only [closeChannel] at hu
    split at hu <;> cases hu
    exact hclosed.faultLate false _ _ _ fun hi => (hclosed.inv hi).faultLate _ _ nofun

/-- What a host operation can do. -/
theorem exec_hostStep {i : Instr} {op : HostOp} {s t : State} (hi : hostOp i = some op) (h : exec i s = .next t) :
    HostStep op s t := by
  cases i <;> cases hi
  case qEnq b =>
    exact runOp_hostStep (fun hp => .of_steps rfl rfl (opened_of_orElse opened_of_needOpen hp) (emit_steps _ s)) h
  case qEnqs bs =>
    exact runOp_hostStep (fun hp => .of_steps rfl rfl (opened_of_orElse opened_of_needOpen hp) (emit_steps _ s)) h
  case qFlush => exact runOp_hostStep (fun hp => .of_drains rfl (opened_of_needOpen hp) (flush_drains s)) h
  case qRead n => exact runOp_hostStep (fun hp => .of_steps rfl rfl (opened_of_needOpen hp) (readExact_steps n s)) h
  case qCount => exact runOp_hostStep (fun hp => .of_steps rfl rfl (opened_of_needOpen hp) (count_steps s)) h
  case clkConfigure hz =>
    exact runOp_hostStep (fun hp => .of_drains rfl (opened_of_needOpen hp) (clkConfigure_drains _ s)) h
  case tapNext src b => exact execTapNext_hostStep h
  case tapPath src dst => exact execTapPath_hostStep h
  case tapGoto dst =>
    refine runOp_hostStep (fun hp => ?_) h
    obtain ⟨hproto, hrest⟩ := orElse_eq_none.1 hp
    exact .of_ensures rfl (opened_of_needProto hproto)
      (tapGoto_ensures s (mem_pathTargets_of_needPath (orElse_eq_none.1 hrest).2))
  case jtagReset =>
    refine runOp_hostStep (fun hp => ?_) h
    obtain ⟨hc, hj⟩ := needProto_eq_none.1 hp
    exact .of_ensures rfl hc (jtagReset_ensures hc hj)
  case jtagScanIr n out =>
    exact runOp_hostStep (fun hp => .of_ensures rfl (opened_of_orElse opened_of_needProto hp)
      (scan_ensures _ _ n out s Inv.stableIr)) h
  case jtagScanDr n out =>
    exact runOp_hostStep (fun hp => .of_ensures rfl (opened_of_orElse opened_of_needProto hp)
      (scan_ensures _ _ n out s Inv.stableDr)) h
  case jtagSetEndIr dst => exact execJtagSetEndIr_hostStep h
  case jtagSetEndDr dst => exact execJtagSetEndDr_hostStep h
  case spiAssert => exact runOp_hostStep (fun hp => .of_drains rfl (opened_of_needProto hp) (spiAssert_drains s)) h
  case spiClear => exact runOp_hostStep (fun hp => .of_drains rfl (opened_of_needProto hp) (spiClear_drains s)) h
  case spiTransact n out =>
    exact runOp_hostStep (fun hp => .of_drains rfl (opened_of_orElse opened_of_needProto hp)
      (spiTransact_drains n out s)) h
  case spiWrite n out =>
    exact runOp_hostStep (fun hp => .of_drains rfl (opened_of_orElse opened_of_needProto hp)
      (spiWrite_drains n out s)) h
  case spiRead n =>
    exact runOp_hostStep (fun hp => .of_drains rfl (opened_of_orElse opened_of_needProto hp) (spiRead_drains n s)) h
  case i2cStart => exact runOp_hostStep (fun hp => .of_drains rfl (opened_of_needProto hp) (i2cHolds_drains _ s)) h
  case i2cRstart => exact runOp_hostStep (fun hp => .of_drains rfl (opened_of_needProto hp) (i2cHolds_drains _ s)) h
  case i2cStop => exact runOp_hostStep (fun hp => .of_drains rfl (opened_of_needProto hp) (i2cHolds_drains _ s)) h
  case i2cWriteByte v =>
    exact runOp_hostStep (fun hp => .of_drains rfl (opened_of_needProto hp) (i2cWriteByte_drains v s)) h
  case i2cReadByte ack =>
    exact runOp_hostStep (fun hp => .of_drains rfl (opened_of_needProto hp) (i2cReadByte_drains ack s)) h
  case i2cXread addr n =>
    exact runOp_hostStep (fun hp => .of_drains rfl (opened_of_orElse opened_of_needProto hp)
      (i2cXread_drains addr n s)) h
  case i2cXwrite addr data =>
    exact runOp_hostStep (fun hp => .of_drains rfl (opened_of_orElse opened_of_needProto hp)
      (i2cXwrite_drains addr data s)) h
  case mpsseSync => exact runOp_hostStep (fun hp => .of_drains rfl (opened_of_needOpen hp) (mpsseSync_drains s)) h
  case jtagOpen hz =>
    exact runOpen_hostStep (fun _ hc hp => .of_opening rfl (jtagOpen_ensures _ hc (mpsse_of_needMpsse hp))) h
  case spiOpen hz =>
    refine runOpen_hostStep (fun _ hc hp => ?_) h
    obtain ⟨hm, hmode⟩ := orElse_eq_none.1 hp
    exact .of_opening rfl (spiOpen_ensures _ hc (mpsse_of_needMpsse hm) (check_eq_none.1 hmode))
  case i2cOpen hz =>
    refine runOpen_hostStep (fun _ hc hp => ?_) h
    obtain ⟨hm, henh⟩ := orElse_eq_none.1 hp
    exact .of_opening rfl (i2cOpen_ensures _ hc (mpsse_of_needMpsse hm) fun h3 => by
      simpa [h3] using check_eq_none.1 henh)
  case close => exact execClose_hostStep h
  case mpsseEmit cmd =>
    exact runOp_hostStep (fun hp => .of_steps rfl rfl (opened_of_orElse opened_of_needOpen hp)
      (mpsseEmit_steps cmd s)) h

/-! ## Engine commands and the step -/

/-- A Level M command acts on the channel alone. -/
theorem exec_command {i : Instr} (hi : hostOp i = none) (s : State) :
    exec i s = .next { s with chan := engCmd i s.chan } := by
  cases i <;> simp [hostOp] at hi <;> rfl

theorem exec_moves {i : Instr} {s t : State} (h : exec i s = .next t) : Moves s t := by
  cases hi : hostOp i with
  | some op => exact (exec_hostStep hi h).toMoves
  | none =>
    rw [exec_command hi] at h
    cases h
    exact (QueueStep.withChan (engCmd_sup i s.chan) (engCmd_marker i s.chan)).steady.moves (Moves.refl _)

/-- `P` holds of the state a fetch goes on from. -/
def Fetched.Ensures (P : State → Prop) : Fetched → Prop
  | .run _ t => P t
  | .pass t => P t
  | .refuse _ => True

/-- Fetching from the port takes the request's bytes from it at most. -/
theorem fetchHost_steady (s : State) : (fetchHost s).Ensures (Steady s) := by
  unfold fetchHost
  split
  · exact Steady.refl s
  · split
    · exact { inv := fun hi => { hi with } }
    · trivial

/-- Fetching changes the channel's streams and the port at most (R70, R95, R98). -/
theorem fetch_steady (s : State) : (fetch s).Ensures (Steady s) := by
  unfold fetch
  split
  · exact QueueStep.steady {}
  · exact QueueStep.steady {}
  · exact fetchHost_steady s

/-- What one step can do (R5). -/
theorem step_moves {s t : State} (h : step s = .next t) : Moves s t := by
  have hfetch := fetch_steady s
  unfold step at h
  split at h <;> rename_i hf <;> rw [hf] at hfetch
  · exact Steady.moves hfetch (exec_moves h)
  · cases h
    exact Steady.moves hfetch (Moves.refl t)
  · cases h

/-! ## The obligations -/

theorem Inv.reset : Inv State.reset where
  cursor := Nat.zero_le _
  canonical := rfl
  inside := nofun
  written := nofun
  stableIr := rfl
  stableDr := rfl
  closedNone _ := rfl
  openedSome := nofun
  knownJtag := nofun
  mirrorRange := by decide
  latched hc := absurd rfl hc
  spiChecked := nofun
  i2cChecked := nofun

/-- Settles O60: what one step can do keeps the invariant. -/
theorem stepKeepsTheInvariant : Obligations.StepKeepsTheInvariant := fun _ _ hi h => (step_moves h).inv hi

/-- Settles O57: an operation that completes ran its last flush, after which nothing buffers; one that raised shows in
FLOG. -/
theorem flushingOperationsEmptyTheQueue : Obligations.FlushingOperationsEmptyTheQueue :=
  fun _ _ _ _ hop hf h hl => (exec_hostStep hop h).drained hf hl

/-- Settles O58: reset by evaluation, a step by what it can do. -/
theorem faultLogOnlyGrows : Obligations.FaultLogOnlyGrows := by
  refine ⟨rfl, fun s t h => ?_⟩
  have hm := step_moves h
  exact ⟨hm.log, hm.par, hm.spiMode, hm.spiCsActiveHigh, hm.i2cThreePhase, hm.sup, hm.marker⟩

/-- Settles O59: the values by evaluation, the invariant field by field. -/
theorem resetValues : Obligations.ResetValues :=
  ⟨rfl, rfl, rfl, fun _ => rfl, rfl, rfl, rfl, rfl, rfl, rfl, rfl, Inv.reset⟩

end Sys2Proof.Machine

/-! PROOF. Decoding and encoding are inverse (spec/30_encoding.md R81, R83 to R88, R93, R98). The opcode and `OPSEL` tables
are searched back once; each command format and each operand reader of the host port has one lemma, and each instruction is
a case of one. -/

namespace Sys2Proof

/-! ## The opcode tables searched back -/

@[simp] theorem CmdKey.ofOpcode_opcode (k : CmdKey) : CmdKey.ofOpcode k.opcode = some k := by
  cases k with
  | bytesW o => cases o <;> rfl
  | bytesR o => cases o <;> rfl
  | bitsW o => cases o <;> rfl
  | bitsR o => cases o <;> rfl
  | tms o => cases o <;> rfl
  | pset o => cases o <;> rfl
  | noarg o => cases o <;> rfl
  | setDiv => rfl
  | odCfg => rfl

theorem CmdKey.opcode_of_ofOpcode {op : Byte} {k : CmdKey} (h : CmdKey.ofOpcode op = some k) : k.opcode = op := by
  simpa using List.find?_some h

@[simp] theorem HostOp.ofOpsel_opsel (h : HostOp) : HostOp.ofOpsel h.opsel = some h := by cases h <;> rfl

@[simp] theorem Tap.ofCode_encTap (t : Tap) : Tap.ofCode (encTap t).toNat = some t := by cases t <;> rfl

theorem decodeCmd_opcode (k : CmdKey) (bs : List Byte) : decodeCmd (k.opcode :: bs) = k.decodeOperands bs := by
  simp [decodeCmd]

/-! ## Length fields -/

theorem le16_lt (lo hi : Byte) : le16 lo hi < 65536 := by
  unfold le16
  omega

@[simp] theorem lo8_le16 (lo hi : Byte) : lo8 (le16 lo hi) = lo := by
  apply BitVec.eq_of_toNat_eq
  simp only [lo8, le16, BitVec.toNat_ofNat]
  omega

@[simp] theorem hi8_le16 (lo hi : Byte) : hi8 (le16 lo hi) = hi := by
  apply BitVec.eq_of_toNat_eq
  simp only [hi8, le16, BitVec.toNat_ofNat]
  omega

theorem le16_lo8_hi8 {v : Nat} (h : v < 65536) : le16 (lo8 v) (hi8 v) = v := by
  simp only [le16, lo8, hi8, BitVec.toNat_ofNat]
  omega

@[simp] theorem lo8_toNat (b : Byte) : lo8 b.toNat = b := by simp [lo8]

theorem toNat_lo8 {v : Nat} (h : v < 256) : (lo8 v).toNat = v := by
  simp only [lo8, BitVec.toNat_ofNat]
  omega

/-- A 16-bit count-minus-one field gives its count back (R83). -/
theorem le16_pred_succ {n : Nat} (h : byteCountOk n = true) : le16 (lo8 (n - 1)) (hi8 (n - 1)) + 1 = n := by
  simp only [byteCountOk, Bool.and_eq_true, decide_eq_true_eq] at h
  rw [le16_lo8_hi8 (by omega)]
  omega

/-- An 8-bit count-minus-one field gives its count back (R84, R86). -/
theorem toNat_lo8_pred_succ {k : Nat} (h1 : 1 ≤ k) (h2 : k ≤ 8) : (lo8 (k - 1)).toNat + 1 = k := by
  rw [toNat_lo8 (by omega)]
  omega

/-! ## The encodings of the formats -/

theorem encodeCmd_bytesW (o : WriteOp) (d : List Byte) :
    encodeCmd (o.bytesInstr d) = encSbw (CmdKey.bytesW o).opcode d := by cases o <;> rfl

theorem encodeCmd_bytesR (o : ReadOp) (n : Nat) :
    encodeCmd (o.bytesInstr n) = encSbr (CmdKey.bytesR o).opcode n := by cases o <;> rfl

theorem encodeCmd_bitsW (o : WriteOp) (k : Nat) (d : Byte) :
    encodeCmd (o.bitsInstr k d) = encBitsW (CmdKey.bitsW o).opcode k d := by cases o <;> rfl

theorem encodeCmd_bitsR (o : ReadOp) (k : Nat) :
    encodeCmd (o.bitsInstr k) = encBitsR (CmdKey.bitsR o).opcode k := by cases o <;> rfl

theorem encodeCmd_tms (o : TmsOp) (m : Nat) (d : Byte) :
    encodeCmd (o.instr m d) = encTms (CmdKey.tms o).opcode m d := by cases o <;> rfl

theorem encodeCmd_pset (o : PsetOp) (v d : Byte) : encodeCmd (o.instr v d) = [(CmdKey.pset o).opcode, v, d] := by
  cases o <;> rfl

theorem encodeCmd_noarg (o : NoargOp) : encodeCmd o.instr = [(CmdKey.noarg o).opcode] := by cases o <;> rfl

/-! ## Level M: encode, then decode -/

/-- The engine's decoder reads the command back from its encoding, whatever follows. -/
def Instr.CmdReadsBack (i : Instr) : Prop := ∀ rest : List Byte, decodeCmd (encodeCmd i ++ rest) = .cmd i rest

theorem WriteOp.bytesInstr_readsBack (o : WriteOp) {d : List Byte} (h : byteCountOk d.length = true) :
    (o.bytesInstr d).CmdReadsBack := fun rest => by
  rw [encodeCmd_bytesW, encSbw, List.cons_append, decodeCmd_opcode]
  simp [CmdKey.decodeOperands, le16_pred_succ h]

theorem ReadOp.bytesInstr_readsBack (o : ReadOp) {n : Nat} (h : byteCountOk n = true) :
    (o.bytesInstr n).CmdReadsBack := fun rest => by
  rw [encodeCmd_bytesR, encSbr, List.cons_append, decodeCmd_opcode]
  simp [CmdKey.decodeOperands, le16_pred_succ h]

theorem WriteOp.bitsInstr_readsBack (o : WriteOp) {k : Nat} (d : Byte) (h : bitCountOk k = true) :
    (o.bitsInstr k d).CmdReadsBack := fun rest => by
  simp only [bitCountOk, Bool.and_eq_true, decide_eq_true_eq] at h
  rw [encodeCmd_bitsW, encBitsW, List.cons_append, decodeCmd_opcode]
  simp [CmdKey.decodeOperands, toNat_lo8_pred_succ h.1 h.2]

theorem ReadOp.bitsInstr_readsBack (o : ReadOp) {k : Nat} (h : bitCountOk k = true) :
    (o.bitsInstr k).CmdReadsBack := fun rest => by
  simp only [bitCountOk, Bool.and_eq_true, decide_eq_true_eq] at h
  rw [encodeCmd_bitsR, encBitsR, List.cons_append, decodeCmd_opcode]
  simp [CmdKey.decodeOperands, toNat_lo8_pred_succ h.1 h.2]

theorem TmsOp.instr_readsBack (o : TmsOp) {m : Nat} (d : Byte) (h : tmsCountOk m = true) :
    (o.instr m d).CmdReadsBack := fun rest => by
  simp only [tmsCountOk, Bool.and_eq_true, decide_eq_true_eq] at h
  rw [encodeCmd_tms, encTms, List.cons_append, decodeCmd_opcode]
  simp [CmdKey.decodeOperands, toNat_lo8_pred_succ h.1 (h.2.trans (by decide))]

theorem PsetOp.instr_readsBack (o : PsetOp) (v d : Byte) : (o.instr v d).CmdReadsBack := fun rest => by
  rw [encodeCmd_pset, List.cons_append, decodeCmd_opcode]
  rfl

theorem NoargOp.instr_readsBack (o : NoargOp) : o.instr.CmdReadsBack := fun rest => by
  rw [encodeCmd_noarg, List.cons_append, decodeCmd_opcode]
  rfl

theorem setDiv_readsBack (d : Divisor) : (Instr.setDiv d).CmdReadsBack := fun rest => by
  refine (decodeCmd_opcode .setDiv _).trans ?_
  simp [CmdKey.decodeOperands, le16_lo8_hi8 d.isLt]

theorem odCfg_readsBack (l h : Byte) : (Instr.odCfg l h).CmdReadsBack := fun rest =>
  decodeCmd_opcode .odCfg (l :: h :: rest)

/-- Every well-formed command is read back: each is a command of its format (R81, R93). -/
theorem cmdReadsBack_of_wellFormed {i : Instr} (hm : i.level = .m) (h : i.wellFormed = true) : i.CmdReadsBack := by
  cases i
  case outBytesWpMsb => exact WriteOp.bytesInstr_readsBack .outWpMsb h
  case outBytesWnMsb => exact WriteOp.bytesInstr_readsBack .outWnMsb h
  case outBytesWpLsb => exact WriteOp.bytesInstr_readsBack .outWpLsb h
  case outBytesWnLsb => exact WriteOp.bytesInstr_readsBack .outWnLsb h
  case ioBytesWnRpMsb => exact WriteOp.bytesInstr_readsBack .ioWnRpMsb h
  case ioBytesWpRnMsb => exact WriteOp.bytesInstr_readsBack .ioWpRnMsb h
  case ioBytesWnRpLsb => exact WriteOp.bytesInstr_readsBack .ioWnRpLsb h
  case ioBytesWpRnLsb => exact WriteOp.bytesInstr_readsBack .ioWpRnLsb h
  case outBitsWpMsb => exact WriteOp.bitsInstr_readsBack .outWpMsb _ h
  case outBitsWnMsb => exact WriteOp.bitsInstr_readsBack .outWnMsb _ h
  case outBitsWpLsb => exact WriteOp.bitsInstr_readsBack .outWpLsb _ h
  case outBitsWnLsb => exact WriteOp.bitsInstr_readsBack .outWnLsb _ h
  case ioBitsWnRpMsb => exact WriteOp.bitsInstr_readsBack .ioWnRpMsb _ h
  case ioBitsWpRnMsb => exact WriteOp.bitsInstr_readsBack .ioWpRnMsb _ h
  case ioBitsWnRpLsb => exact WriteOp.bitsInstr_readsBack .ioWnRpLsb _ h
  case ioBitsWpRnLsb => exact WriteOp.bitsInstr_readsBack .ioWpRnLsb _ h
  case inBytesRpMsb => exact ReadOp.bytesInstr_readsBack .rpMsb h
  case inBytesRnMsb => exact ReadOp.bytesInstr_readsBack .rnMsb h
  case inBytesRpLsb => exact ReadOp.bytesInstr_readsBack .rpLsb h
  case inBytesRnLsb => exact ReadOp.bytesInstr_readsBack .rnLsb h
  case inBitsRpMsb => exact ReadOp.bitsInstr_readsBack .rpMsb h
  case inBitsRnMsb => exact ReadOp.bitsInstr_readsBack .rnMsb h
  case inBitsRpLsb => exact ReadOp.bitsInstr_readsBack .rpLsb h
  case inBitsRnLsb => exact ReadOp.bitsInstr_readsBack .rnLsb h
  case tmsWp => exact TmsOp.instr_readsBack .wp _ h
  case tmsWn => exact TmsOp.instr_readsBack .wn _ h
  case tmsrWpRp => exact TmsOp.instr_readsBack .wpRp _ h
  case tmsrWnRp => exact TmsOp.instr_readsBack .wnRp _ h
  case tmsrWpRn => exact TmsOp.instr_readsBack .wpRn _ h
  case tmsrWnRn => exact TmsOp.instr_readsBack .wnRn _ h
  case setLow => exact PsetOp.instr_readsBack .low _ _
  case setHigh => exact PsetOp.instr_readsBack .high _ _
  case getLow => exact NoargOp.instr_readsBack .getLow
  case getHigh => exact NoargOp.instr_readsBack .getHigh
  case loopOn => exact NoargOp.instr_readsBack .loopOn
  case loopOff => exact NoargOp.instr_readsBack .loopOff
  case sendImm => exact NoargOp.instr_readsBack .sendImm
  case div5Off => exact NoargOp.instr_readsBack .div5Off
  case div5On => exact NoargOp.instr_readsBack .div5On
  case ph3On => exact NoargOp.instr_readsBack .ph3On
  case ph3Off => exact NoargOp.instr_readsBack .ph3Off
  case adaptOn => exact NoargOp.instr_readsBack .adaptOn
  case adaptOff => exact NoargOp.instr_readsBack .adaptOff
  case bogus => exact NoargOp.instr_readsBack .bogus
  case setDiv => exact setDiv_readsBack _
  case odCfg => exact odCfg_readsBack _ _
  all_goals cases hm

/-! ## Level M: decode, then encode -/

/-- What a key's operands are decoded from is what the command's encoding has after the opcode, out-of-range length bytes
included (R81). -/
theorem encodeCmd_of_decodeOperands (k : CmdKey) (bs : List Byte) {i : Instr} {r : List Byte}
    (h : k.decodeOperands bs = .cmd i r) : encodeCmd i ++ r = k.opcode :: bs := by
  cases k with
  | bytesW o =>
    rcases bs with _ | ⟨lo, _ | ⟨hi, ds⟩⟩ <;> simp only [CmdKey.decodeOperands, reduceCtorEq] at h
    split at h
    · rename_i hlen
      cases h
      simp [encodeCmd_bytesW, encSbw, Nat.min_eq_left hlen]
    · cases h
  | bytesR o =>
    rcases bs with _ | ⟨lo, _ | ⟨hi, bs⟩⟩ <;> cases h
    simp [encodeCmd_bytesR, encSbr]
  | bitsW o =>
    rcases bs with _ | ⟨len, _ | ⟨d, bs⟩⟩ <;> cases h
    simp [encodeCmd_bitsW, encBitsW]
  | bitsR o =>
    rcases bs with _ | ⟨len, bs⟩ <;> cases h
    simp [encodeCmd_bitsR, encBitsR]
  | tms o =>
    rcases bs with _ | ⟨len, _ | ⟨d, bs⟩⟩ <;> cases h
    simp [encodeCmd_tms, encTms]
  | pset o =>
    rcases bs with _ | ⟨v, _ | ⟨d, bs⟩⟩ <;> cases h
    simp [encodeCmd_pset]
  | noarg o =>
    cases h
    simp [encodeCmd_noarg]
  | setDiv =>
    rcases bs with _ | ⟨lo, _ | ⟨hi, bs⟩⟩ <;> cases h
    simp [encodeCmd, CmdKey.opcode, Nat.mod_eq_of_lt (le16_lt lo hi)]
  | odCfg =>
    rcases bs with _ | ⟨l, _ | ⟨m, bs⟩⟩ <;> cases h
    rfl

theorem encodeCmd_of_decodeCmd {bs : List Byte} {i : Instr} {r : List Byte} (h : decodeCmd bs = .cmd i r) :
    encodeCmd i ++ r = bs := by
  cases bs with
  | nil => cases h
  | cons op bs =>
    simp only [decodeCmd] at h
    split at h
    · rename_i k hk
      rw [encodeCmd_of_decodeOperands k bs h, CmdKey.opcode_of_ofOpcode hk]
    · cases h

/-! ## Level H: the readers of the host port (log entry 3) -/

/-- The reader takes the value from its bytes and leaves what follows. -/
def Reads {α : Type} (rd : List Byte → PortRead α) (enc : List Byte) (a : α) : Prop :=
  ∀ rest : List Byte, rd (enc ++ rest) = .ok (a, rest)

theorem rdByte_reads (b : Byte) : Reads rdByte [b] b := fun _ => rfl

theorem rdNat_reads {n : Nat} (h : portNatOk n = true) : Reads rdNat (le32 n) n := fun rest => by
  simp only [portNatOk, decide_eq_true_eq] at h
  have hsum : n % 256 + 256 * (n / 256 % 256) + 65536 * (n / 65536 % 256) + 16777216 * (n / 16777216 % 256) = n := by
    omega
  simp [rdNat, le32, hsum]

theorem rdHertz_reads (hz : Hertz) : Reads rdHertz (le32 hz.toNat) hz := fun rest => by
  have hfits : portNatOk hz.toNat = true := decide_eq_true hz.isLt
  simp [rdHertz, rdNat_reads hfits rest]

theorem rdBytes_reads {bs : List Byte} (h : portBytesOk bs = true) : Reads rdBytes (encBytes bs) bs := fun rest => by
  simp [rdBytes, encBytes, List.append_assoc, rdNat_reads h (bs ++ rest)]

theorem rdBool_reads (b : Bool) : Reads rdBool [encBool b] b := fun _ => by cases b <;> rfl

theorem rdTap_reads (t : Tap) : Reads rdTap [encTap t] t := fun _ => by simp [rdTap]

theorem rdOne_reads {α β : Type} {rd : List Byte → PortRead α} {e : List Byte} {a : α} (h : Reads rd e a) (mk : α → β) :
    Reads (rdOne rd mk) e (mk a) := fun rest => by simp [rdOne, h rest]

theorem rdTwo_reads {α β γ : Type} {rd : List Byte → PortRead α} {rd' : List Byte → PortRead β} {e e' : List Byte}
    {a : α} {b : β} (h : Reads rd e a) (h' : Reads rd' e' b) (mk : α → β → γ) :
    Reads (rdTwo rd rd' mk) (e ++ e') (mk a b) := fun rest => by
  simp [rdTwo, h (e' ++ rest), rdOne_reads h' (mk a) rest]

/-- A count, then a byte array: the operands of scans, SPI transfers and byte commands. -/
theorem rdNat_rdBytes_reads {γ : Type} {n : Nat} {bs : List Byte} (h : (portNatOk n && portBytesOk bs) = true)
    (mk : Nat → List Byte → γ) : Reads (rdTwo rdNat rdBytes mk) (le32 n ++ encBytes bs) (mk n bs) := by
  obtain ⟨hn, hbs⟩ := Bool.and_eq_true_iff.1 h
  exact rdTwo_reads (rdNat_reads hn) (rdBytes_reads hbs) mk

theorem rdMCmd_opcode {k : CmdKey} {e : List Byte} {cmd : MCmd} (h : Reads k.decodeEmit e cmd) :
    Reads rdMCmd (k.opcode :: e) cmd := fun rest => by simpa [rdMCmd] using h rest

/-- MPSSE.EMIT's operand is read back in the forms of R99. -/
theorem rdMCmd_reads {cmd : MCmd} (h : cmd.wellFormed = true) : Reads rdMCmd (encMCmd cmd) cmd := by
  cases cmd with
  | bytesW o n d => exact rdMCmd_opcode (rdNat_rdBytes_reads h _)
  | bytesR o n => exact rdMCmd_opcode (rdOne_reads (rdNat_reads h) _)
  | bitsW o k d => exact rdMCmd_opcode (rdTwo_reads (rdNat_reads h) (rdByte_reads d) _)
  | bitsR o k => exact rdMCmd_opcode (rdOne_reads (rdNat_reads h) _)
  | tms o m d => exact rdMCmd_opcode (rdTwo_reads (rdNat_reads h) (rdByte_reads d) _)
  | pset o v d => exact rdMCmd_opcode (rdTwo_reads (rdByte_reads v) (rdByte_reads d) _)
  | noarg o => exact rdMCmd_opcode fun _ => rfl
  | setDiv d => exact rdMCmd_opcode (rdOne_reads (rdNat_reads h) _)
  | odCfg l m => exact rdMCmd_opcode (rdTwo_reads (rdByte_reads l) (rdByte_reads m) _)
  | unknown op =>
    intro rest
    simp [rdMCmd, encMCmd, Option.isNone_iff_eq_none.1 h]

theorem decodeHost_opsel {op : HostOp} {e : List Byte} {i : Instr} (h : Reads op.decodeOperands e i) :
    Reads decodeHost (op.opsel :: e) i := fun rest => by simpa [decodeHost] using h rest

/-- Every well-formed request is read back from the port (R98). -/
theorem decodeHost_encodeHost {i : Instr} (hh : i.level = .h) (h : i.wellFormed = true) :
    Reads decodeHost (encodeHost i) i := by
  cases i
  case qEnq b => exact decodeHost_opsel (rdOne_reads (rdByte_reads b) _)
  case qEnqs bs => exact decodeHost_opsel (rdOne_reads (rdBytes_reads h) _)
  case qFlush => exact decodeHost_opsel fun _ => rfl
  case qRead n => exact decodeHost_opsel (rdOne_reads (rdNat_reads h) _)
  case qCount => exact decodeHost_opsel fun _ => rfl
  case clkConfigure hz => exact decodeHost_opsel (rdOne_reads (rdHertz_reads hz) _)
  case tapNext t b => exact decodeHost_opsel (rdTwo_reads (rdTap_reads t) (rdBool_reads b) _)
  case tapPath src dst => exact decodeHost_opsel (rdTwo_reads (rdTap_reads src) (rdTap_reads dst) _)
  case tapGoto dst => exact decodeHost_opsel (rdOne_reads (rdTap_reads dst) _)
  case jtagReset => exact decodeHost_opsel fun _ => rfl
  case jtagScanIr n out => exact decodeHost_opsel (rdNat_rdBytes_reads h _)
  case jtagScanDr n out => exact decodeHost_opsel (rdNat_rdBytes_reads h _)
  case jtagSetEndIr t => exact decodeHost_opsel (rdOne_reads (rdTap_reads t) _)
  case jtagSetEndDr t => exact decodeHost_opsel (rdOne_reads (rdTap_reads t) _)
  case spiAssert => exact decodeHost_opsel fun _ => rfl
  case spiClear => exact decodeHost_opsel fun _ => rfl
  case spiTransact n out => exact decodeHost_opsel (rdNat_rdBytes_reads h _)
  case spiWrite n out => exact decodeHost_opsel (rdNat_rdBytes_reads h _)
  case spiRead n => exact decodeHost_opsel (rdOne_reads (rdNat_reads h) _)
  case i2cStart => exact decodeHost_opsel fun _ => rfl
  case i2cRstart => exact decodeHost_opsel fun _ => rfl
  case i2cStop => exact decodeHost_opsel fun _ => rfl
  case i2cWriteByte v => exact decodeHost_opsel (rdOne_reads (rdByte_reads v) _)
  case i2cReadByte ack => exact decodeHost_opsel (rdOne_reads (rdBool_reads ack) _)
  case i2cXread addr count => exact decodeHost_opsel (rdTwo_reads (rdByte_reads addr) (rdNat_reads h) _)
  case i2cXwrite addr data => exact decodeHost_opsel (rdTwo_reads (rdByte_reads addr) (rdBytes_reads h) _)
  case mpsseSync => exact decodeHost_opsel fun _ => rfl
  case jtagOpen hz => exact decodeHost_opsel (rdOne_reads (rdHertz_reads hz) _)
  case spiOpen hz => exact decodeHost_opsel (rdOne_reads (rdHertz_reads hz) _)
  case i2cOpen hz => exact decodeHost_opsel (rdOne_reads (rdHertz_reads hz) _)
  case close => exact decodeHost_opsel fun _ => rfl
  case mpsseEmit cmd => exact decodeHost_opsel (rdOne_reads (rdMCmd_reads h) _)
  all_goals cases hh

/-! ## The obligations on decoding -/

/-- Each level's decoder reads back what the encoder of that level writes. -/
theorem decode_encode {i : Instr} (h : i.wellFormed = true) (rest : List Byte) :
    decode i.level (encode i ++ rest) = some (i, rest) := by
  cases hl : i.level with
  | m => simp [decode, encode, hl, cmdReadsBack_of_wellFormed hl h rest]
  | h => simp [decode, encode, hl, decodeHost_encodeHost hl h rest]

/-- Settles O1: level by level, from the format and reader lemmas. -/
theorem decodeEncode : Obligations.DecodeEncode := ⟨fun _ rest h => decode_encode h rest, fun _ _ _ => encodeCmd_of_decodeCmd⟩

/-- Settles O2: the words by evaluation of the two decoders. -/
theorem writtenWordsDecode : Obligations.WrittenWordsDecode :=
  ⟨rfl, rfl, rfl, rfl, rfl, rfl, rfl, rfl, rfl, rfl, rfl, rfl, rfl, rfl, rfl, rfl⟩

end Sys2Proof

/-! PROOF. What a step runs, unrecognised opcodes, and the TMS commands (spec/30_encoding.md R86, R88, R95 to R98;
47_mpsse_shift_opcodes.md R222, R247 to R252; 48_mpsse_pin_config_opcodes.md R277). -/

namespace Sys2Proof.Machine

/-! ## What the engine finds (R88) -/

theorem Chan.engFetch_cmd {c : Chan} {i : Instr} {r : List Byte} (h : decodeCmd c.tx = .cmd i r) :
    c.engFetch = .cmd i r := by simp [Chan.engFetch, h]

theorem Chan.engFetch_unknown {c : Chan} {op : Byte} {r : List Byte} (h : decodeCmd c.tx = .unknown op r) :
    c.engFetch = .unknown op r := by simp [Chan.engFetch, h]

theorem decodeCmd_unknown {op : Byte} (h : CmdKey.ofOpcode op = none) (r : List Byte) :
    decodeCmd (op :: r) = .unknown op r := by simp [decodeCmd, h]

/-! ## What a step runs (R70, R98) -/

theorem step_cmd {s : State} {i : Instr} {r : List Byte} (h : s.chan.engFetch = .cmd i r) :
    step s = exec i { s with chan := { s.chan with tx := r } } := by simp [step, fetch, h]

theorem step_unknown {s : State} {op : Byte} {r : List Byte} (h : s.chan.engFetch = .unknown op r) :
    step s = .next { s with chan := Chan.echo op { s.chan with tx := r } } := by simp [step, fetch, h]

theorem fetchHost_run {s : State} {i : Instr} {r : List Byte} (h : decodeHost s.port = .ok (i, r)) :
    fetchHost s = .run i { s with port := r } := by
  cases hp : s.port with
  | nil => rw [hp] at h; cases h
  | cons b bs => rw [hp] at h; simp [fetchHost, hp, h]

theorem step_host {s : State} {i : Instr} {r : List Byte} (he : s.chan.engFetch = .short)
    (h : decodeHost s.port = .ok (i, r)) : step s = exec i { s with port := r } := by
  simp [step, fetch, he, fetchHost_run h]

/-- Settles O3: the engine's case and the host's case of a step. -/
theorem stepRunsDecoded : Obligations.StepRunsDecoded :=
  ⟨fun _ _ _ h => step_cmd (Chan.engFetch_cmd h), fun _ _ _ => step_host⟩

/-- Settles O4: the decoder finds no command, and the step is the echo. -/
theorem unrecognisedOpcodeIsEchoed : Obligations.UnrecognisedOpcodeIsEchoed := fun s op r htx hop => by
  have hfetch : s.chan.engFetch = .unknown op r := Chan.engFetch_unknown (htx ▸ decodeCmd_unknown hop r)
  exact step_unknown hfetch

/-! ## Gated commands (R97, R277) -/

theorem Chan.gated_closed {c : Chan} {g : Gate} (h : c.sup.opens g = false) (op : Byte) (operands : List Byte)
    (act : Chan → Chan) : c.gated g op operands act = Chan.echo op { c with tx := operands ++ c.tx } := by
  simp [Chan.gated, h]

/-- A command behind a closed gate gathers the marker and its opcode, and its operand bytes go back to the stream. -/
theorem next_gated_closed {s : State} {g : Gate} (h : s.chan.sup.opens g = false) (op : Byte) (operands : List Byte)
    (act : Chan → Chan) :
    (.next { s with chan := s.chan.gated g op operands act } : Host.Outcome State Fault Refusal) =
      .next { s with chan := { s.chan with
        tx := operands ++ s.chan.tx
        eng := { s.chan.eng with gathered := s.chan.eng.gathered ++ [s.chan.marker, op] } } } := by
  rw [Chan.gated_closed h]
  rfl

/-- Settles O16: each gated command, behind its closed gate. -/
theorem gatedCommandsOnALesserChip : Obligations.GatedCommandsOnALesserChip := fun s => by
  constructor
  · intro henh p hp
    have hgate : s.chan.sup.opens .enhanced = false := henh
    simp only [List.mem_cons, List.not_mem_nil, or_false] at hp
    obtain rfl | rfl | rfl | rfl | rfl | rfl := hp
    all_goals exact next_gated_closed hgate _ [] _
  · intro hod l h
    have hgate : s.chan.sup.opens .openDrain = false := hod
    exact next_gated_closed hgate _ [l, h] _

/-! ## A run of pulses: the pins it leaves and the samples it takes -/

/-- The low value latch after a run of pulses with these levels of data-out and TMS (R221, R222). -/
def latchAfter (levels : List (Bool × Bool)) (v : Byte) : Byte :=
  levels.foldl (fun v x => putBit (putBit v dataOutBit x.1) selectBit x.2) v

theorem latchAfter_concat (levels : List (Bool × Bool)) (x : Bool × Bool) (v : Byte) :
    latchAfter (levels ++ [x]) v = putBit (putBit (latchAfter levels v) dataOutBit x.1) selectBit x.2 := by
  simp [latchAfter]

theorem latchAfter_dataOut (levels : List (Bool × Bool)) (v : Byte) :
    (latchAfter levels v).getLsbD dataOutBit = (levels.getLast?.map Prod.fst).getD (v.getLsbD dataOutBit) := by
  cases levels using List.reverseRecOn with
  | nil => rfl
  | append_singleton levels x =>
    rw [latchAfter_concat, putBit_other _ _ (by decide), putBit_same _ _ _ (by decide)]
    simp

theorem latchAfter_select (levels : List (Bool × Bool)) (v : Byte) :
    (latchAfter levels v).getLsbD selectBit = (levels.getLast?.map Prod.snd).getD (v.getLsbD selectBit) := by
  cases levels using List.reverseRecOn with
  | nil => rfl
  | append_singleton levels x =>
    rw [latchAfter_concat, putBit_same _ _ _ (by decide)]
    simp

theorem latchAfter_other (levels : List (Bool × Bool)) (v : Byte) {i : Nat} (hd : i ≠ dataOutBit) (hs : i ≠ selectBit) :
    (latchAfter levels v).getLsbD i = v.getLsbD i := by
  induction levels using List.reverseRecOn with
  | nil => rfl
  | append_singleton levels x ih => rw [latchAfter_concat, putBit_other _ _ hs, putBit_other _ _ hd, ih]

/-- A run of pulses leaves data-out and TMS at their last levels and every other pin alone. -/
theorem Chan.pinsAfter_of_lowVal {c d : Chan} {levels : List (Bool × Bool)}
    (h : d.eng.lowVal = latchAfter levels c.eng.lowVal) : c.PinsAfter d levels := by
  refine ⟨?_, ?_, fun i hd hs => ?_⟩
  · rw [Engine.dataOut, h, latchAfter_dataOut]; rfl
  · rw [Engine.tmsLevel, h, latchAfter_select]; rfl
  · rw [h, latchAfter_other _ _ hd hs]

/-- A run that reads takes one sample a pulse. -/
theorem Chan.Clocked.samplesOf_length {c d : Chan} {w : Option Edge} {r : Edge} {levels : List (Bool × Bool)}
    {ps : List Pulse} (h : c.Clocked w (some r) levels d ps) : (samplesOf ps).length = levels.length := by
  obtain ⟨-, hlevels, hps⟩ := h
  have hall : ∀ p ∈ ps, p.din.isSome = true := fun p hp => (hps p hp).2.2.1
  rw [samplesOf, List.length_filterMap_eq_countP, List.countP_eq_length.2 hall, ← hlevels, List.length_map]

/-! ## The response byte of a bit-oriented read (R96) -/

theorem capture_concat (ord : BitOrder) (stale : Byte) (bits : List Bool) (b : Bool) :
    capture ord stale (bits ++ [b]) = shiftIn ord (capture ord stale bits) b := by
  simp [capture]

/-- The new bit stands at the last sample's place. -/
theorem shiftIn_last (ord : BitOrder) (a : Byte) (b : Bool) {k : Nat} (hk : k < 8) :
    (shiftIn ord a b).getLsbD (bitPos ord (k + 1) k) = b := by
  cases ord with
  | msb =>
    have hpos : bitPos .msb (k + 1) k = 0 := by simp [bitPos]
    rw [hpos, shiftIn, putBit_same _ _ _ (by decide)]
  | lsb =>
    have hpos : bitPos .lsb (k + 1) k = 7 := by simp only [bitPos]; omega
    rw [hpos, shiftIn, putBit_same _ _ _ (by decide)]

/-- The earlier bits move on to their places. -/
theorem shiftIn_earlier (ord : BitOrder) (a : Byte) (b : Bool) {i k : Nat} (hi : i < k) (hk : k < 8) :
    (shiftIn ord a b).getLsbD (bitPos ord (k + 1) i) = a.getLsbD (bitPos ord k i) := by
  cases ord with
  | msb =>
    simp only [bitPos, shiftIn]
    rw [putBit_other _ _ (by omega), BitVec.getLsbD_shiftLeft]
    have hpos : k + 1 - 1 - i - 1 = k - 1 - i := by omega
    simp only [hpos, show k + 1 - 1 - i < 8 by omega, show ¬ k + 1 - 1 - i < 1 by omega, decide_true, decide_false,
      Bool.not_false, Bool.true_and]
  | lsb =>
    simp only [bitPos, shiftIn]
    rw [putBit_other _ _ (by omega), BitVec.getLsbD_ushiftRight]
    congr 1
    omega

/-- Up to eight captured bits stand where a bit-oriented read puts them, whatever was in the register before. -/
theorem capture_bitsHold (ord : BitOrder) (stale : Byte) (bits : List Bool) (hlen : bits.length ≤ 8) :
    BitsHold ord bits.length bits (capture ord stale bits) := by
  refine ⟨rfl, ?_⟩
  induction bits using List.reverseRecOn with
  | nil => exact fun i hi => absurd hi (Nat.not_lt_zero i)
  | append_singleton bits b ih =>
    simp only [List.length_append, List.length_singleton] at hlen ⊢
    intro i hi
    rw [capture_concat]
    obtain hlt | rfl : i < bits.length ∨ i = bits.length := by omega
    · rw [shiftIn_earlier ord _ b hlt (by omega), ih (by omega) i hlt, List.getD_append _ _ _ _ hlt]
    · rw [shiftIn_last ord _ b (by omega)]
      simp

/-! ## The TMS commands (R86, R247 to R252) -/

/-- A length field in range gives its count, any other some count from 1 to 7 (log entry 16). -/
theorem Chan.tmsCount_spec (m : Nat) (c : Chan) :
    ∃ j n, c.tmsCount m = (j, { c with fresh := n }) ∧ 1 ≤ j ∧ j ≤ 7 ∧ (1 ≤ m ∧ m ≤ 7 → j = m) := by
  by_cases h : 1 ≤ m ∧ m ≤ 7
  · exact ⟨m, c.fresh, c.tmsCount_ok h, h.1, h.2, fun _ => rfl⟩
  · exact ⟨_, _, if_neg h, Nat.le_add_left .., (Config.freeTmsCount c.fresh).isLt, fun hm => absurd hm h⟩

theorem tmsPulses_eq {j : Nat} (hj : j ≤ 7) (d : Byte) :
    tmsPulses j d = (List.range j).map fun i => (d.getLsbD 7, d.getLsbD i) := by
  simp [tmsPulses, bitsOf, ← List.map_take, List.take_range, Nat.min_eq_left (hj.trans (by decide : 7 ≤ 8))]

/-- What a TMS command that writes on edge `w` and samples on edge `r` does to the channel, with length field `m` and data
byte `d`: pulses with the control bits on TMS and bit 7 on data-out, the pins and the response they leave, and nothing else
of the streams and settings. -/
def Chan.ClocksTms (c : Chan) (w : Edge) (r : Option Edge) (m : Nat) (d : Byte) (e : Chan) : Prop :=
  ∃ (ps : List Pulse) (rs : List Byte) (j : Nat), 1 ≤ j ∧ j ≤ 7 ∧ (1 ≤ m ∧ m ≤ 7 → j = m)
    ∧ c.SameStreams e
    ∧ c.Clocked (some w) r ((List.range j).map fun i => (d.getLsbD 7, d.getLsbD i)) e ps
    ∧ c.PinsAfter e ((List.range j).map fun i => (d.getLsbD 7, d.getLsbD i))
    ∧ e.eng.gathered = c.eng.gathered ++ rs
    ∧ (r = none → rs = [])
    ∧ (r ≠ none → ∃ b, rs = [b] ∧ BitsHold .lsb j (samplesOf ps) b)

/-- The run of pulses both kinds of TMS command make. -/
theorem Chan.tmsRun_spec (w : Edge) (r : Option Edge) (m : Nat) (d : Byte) (c : Chan) {q : List Bool × Chan}
    (hq : q = (c.tmsCount m).2.pulses (some w) r (tmsPulses (c.tmsCount m).1 d)) :
    ∃ ps j, 1 ≤ j ∧ j ≤ 7 ∧ (1 ≤ m ∧ m ≤ 7 → j = m) ∧ c.SameStreams q.2
      ∧ c.Clocked (some w) r ((List.range j).map fun i => (d.getLsbD 7, d.getLsbD i)) q.2 ps
      ∧ c.PinsAfter q.2 ((List.range j).map fun i => (d.getLsbD 7, d.getLsbD i))
      ∧ q.2.eng.gathered = c.eng.gathered ∧ q.1 = samplesOf ps := by
  obtain ⟨j, n, hcount, h1, h7, hm⟩ := c.tmsCount_spec m
  rw [hcount, tmsPulses_eq h7] at hq
  obtain ⟨ps, hclk, hsamples, hsame, hgath, hlow⟩ := Chan.pulses_spec (some w) r
    ((List.range j).map fun i => (d.getLsbD 7, d.getLsbD i)) { c with fresh := n }
  rw [hq]
  exact ⟨ps, j, h1, h7, hm, hsame, hclk, Chan.pinsAfter_of_lowVal hlow, hgath, hsamples⟩

theorem Chan.tmsOut_clocks (w : Edge) (m : Nat) (d : Byte) (c : Chan) : c.ClocksTms w none m d (c.tmsOut w m d) := by
  obtain ⟨ps, j, h1, h7, hm, hsame, hclk, hpins, hgath, -⟩ := c.tmsRun_spec w none m d rfl
  exact ⟨ps, [], j, h1, h7, hm, hsame, hclk, hpins, hgath.trans (List.append_nil _).symm, fun _ => rfl,
    fun h => absurd rfl h⟩

theorem Chan.gatherBits_gathered (ord : BitOrder) (bits : List Bool) (c : Chan) :
    ∃ stale, (c.gatherBits ord bits).eng.gathered = c.eng.gathered ++ [capture ord stale bits] := ⟨_, rfl⟩

theorem Chan.tmsIo_clocks (w r : Edge) (m : Nat) (d : Byte) (c : Chan) :
    c.ClocksTms w (some r) m d (c.tmsIo w r m d) := by
  obtain ⟨ps, j, h1, h7, hm, hsame, hclk, hpins, hgath, hsamples⟩ := c.tmsRun_spec w (some r) m d rfl
  obtain ⟨stale, hresp⟩ : ∃ stale, (c.tmsIo w r m d).eng.gathered = _ ++ [capture .lsb stale _] :=
    Chan.gatherBits_gathered _ _ _
  rw [hgath, hsamples] at hresp
  have hlen : (samplesOf ps).length = j := by simp [hclk.samplesOf_length]
  have hhold : BitsHold .lsb j (samplesOf ps) (capture .lsb stale (samplesOf ps)) := by
    simpa only [hlen] using capture_bitsHold .lsb stale (samplesOf ps) (by omega)
  exact ⟨ps, _, j, h1, h7, hm, hsame.trans (Chan.gatherBits_same _ _ _), hclk, hpins, hresp, nofun,
    fun _ => ⟨_, rfl, hhold⟩⟩

/-- Each TMS command has the edges of R93. -/
theorem engCmd_tms (o : TmsOp) (m : Nat) (d : Byte) (c : Chan) :
    c.ClocksTms (tmsEdge o) (tmsReads o) m d (engCmd (o.instr m d) c) := by
  cases o with
  | wp => exact c.tmsOut_clocks .rising m d
  | wn => exact c.tmsOut_clocks .falling m d
  | wpRp => exact c.tmsIo_clocks .rising .rising m d
  | wnRp => exact c.tmsIo_clocks .falling .rising m d
  | wpRn => exact c.tmsIo_clocks .rising .falling m d
  | wnRn => exact c.tmsIo_clocks .falling .falling m d

theorem hostOp_tms (o : TmsOp) (m : Nat) (d : Byte) : hostOp (o.instr m d) = none := by cases o <;> rfl

/-- Settles O9: what a TMS command does to the channel is all it does. -/
theorem tmsCommandsClockTheirBits : Obligations.TmsCommandsClockTheirBits := fun o m d s => by
  obtain ⟨ps, rs, j, h1, h7, hm, hsame, hclk, hpins, hgath, hout, hio⟩ := engCmd_tms o m d s.chan
  exact ⟨_, ps, rs, j, exec_command (hostOp_tms o m d) s, h1, h7, hm, rfl, hsame, hclk, hpins, hgath, hout, hio⟩

end Sys2Proof.Machine

/-! PROOF. The queue operations of the host (spec/40_queue.md R110 to R114; 20_memory.md R61 to R63, R68 to R71;
60_exceptions.md R291, R296). A read that the agent answers takes one chunk of the response stream: `Chan.chunk` is the
channel after it, and the chunks of a read are the beginning of that stream. -/

namespace Sys2Proof.Machine

/-! ## How a queue operation ends -/

/-- The transport fault of an operation that is no open: the record, the emptied queue, the mirror given up under JTAG,
the code; `CH` and `PROTO` stay (R291, R296). -/
theorem faultLate_transport (op : HostOp) (i : Detail) (s : State) :
    faultLate false op .transport i s = { s with
      qcur := 0, answer := .fault .transport, tapKnown := s.tapKnown && !decide (s.proto = .jtag),
      flog := s.flog ++ [⟨.transport, op, i⟩] } := by
  simp [faultLate]

theorem needFit_eq {s : State} (h : s.ch = .opened) (bs : List Byte) :
    needFit bs s = check (s.fits bs) .sizing (s.overflow bs) := by
  rw [needFit, needOpen_eq_none.2 h, orElse_none]

/-- A raw append of bytes that fit stores them (R110, R111). -/
theorem runOp_append_fits (op : HostOp) {s : State} {bs : List Byte} (h : s.ch = .opened)
    (hfit : s.qcur + bs.length ≤ s.par.qcap) :
    runOp op (needFit bs) (emit bs) (fun _ => .done) s = .next ((s.append bs).answering .done) := by
  have hpre : needFit bs s = none := by rw [needFit_eq h, (s.fits_iff bs).2 hfit, check_true]
  exact runOp_ok op _ _ _ s hpre (emit_ok bs s hfit)

/-- A raw append of bytes that do not fit is refused by its check (R110, R111, R296). -/
theorem runOp_append_overflows (op : HostOp) {s : State} {bs : List Byte} (h : s.ch = .opened)
    (hover : s.par.qcap < s.qcur + bs.length) :
    runOp op (needFit bs) (emit bs) (fun _ => .done) s = .next (s.logged .sizing op (s.overflow bs)) := by
  have hfits : s.fits bs = false := by
    rw [Bool.eq_false_iff, Ne, State.fits_iff]
    omega
  exact runOp_early op _ _ _ s (by rw [needFit_eq h, hfits, check_false])

theorem exec_qFlush_ok {s t : State} (h : s.ch = .opened) (hb : flush s = .ok () t) :
    exec .qFlush s = .next (t.answering .done) :=
  runOp_ok .qFlush needOpen flush _ s (needOpen_eq_none.2 h) hb

theorem exec_qFlush_raised {s t : State} {i : Detail} (h : s.ch = .opened) (hb : flush s = .raised .transport i t) :
    exec .qFlush s = .next (faultLate false .qFlush .transport i t) :=
  runOp_raised .qFlush needOpen flush _ s (needOpen_eq_none.2 h) hb

theorem exec_qRead_ok {s : State} {n : Nat} {bs : List Byte} {c : Chan} (h : s.ch = .opened)
    (hb : s.chan.readExact n = (.ok bs, c)) : exec (.qRead n) s = .next ((s.withChan c).answering (.bytes bs)) :=
  runOp_ok .qRead needOpen (readExact n) .bytes s (needOpen_eq_none.2 h) (readExact_ok n s hb)

theorem exec_qRead_raised {s : State} {n got : Nat} {c : Chan} (h : s.ch = .opened)
    (hb : s.chan.readExact n = (.error got, c)) :
    exec (.qRead n) s = .next (faultLate false .qRead .transport (.read got) (s.withChan c)) :=
  runOp_raised .qRead needOpen (readExact n) .bytes s (needOpen_eq_none.2 h) (readExact_raised n s hb)

/-! ## Q.ENQ and Q.ENQS -/

/-- Settles O17: what fits is `State.append`, what does not is the overflow record. -/
theorem queueAppends : Obligations.QueueAppends := fun s bs hopen => by
  constructor
  · intro hfit
    refine ⟨_, runOp_append_fits .qEnqs hopen hfit, rfl, fun i hi => ?_, fun a ha => ?_, ?_⟩
    · show (s.qbuf.writeList s.qcur bs).read (s.qcur + i) = bs[i]?
      rw [Memory.read_writeList, if_pos (by omega), Nat.add_sub_cancel_left]
    · show (s.qbuf.writeList s.qcur bs).read a = s.qbuf.read a
      rw [Memory.read_writeList, if_neg (by omega)]
    · rintro b rfl
      exact runOp_append_fits .qEnq hopen hfit
  · intro hover
    refine ⟨runOp_append_overflows .qEnqs hopen hover, ?_⟩
    rintro b rfl
    exact runOp_append_overflows .qEnq hopen hover

/-! ## Q.FLUSH -/

theorem Memory.region_length (m : Memory) (n : Nat) : (m.region n).length = n := by simp [Memory.region]

/-- Where the buffer has been written, the region holds its bytes (R112). -/
theorem Memory.region_getElem? (m : Memory) {a n : Nat} (ha : a < n) (hw : (m.read a).isSome = true) :
    (m.region n)[a]? = m.read a := by
  obtain ⟨b, hb⟩ := Option.isSome_iff_exists.1 hw
  simp [Memory.region, Memory.byteAt, ha, hb]

theorem Chan.write_last {c : Chan} (h : c.turns = []) (bs : List Byte) :
    c.write bs = (true, { c with tx := c.tx ++ bs }.called (.write bs)) := by
  simp only [Chan.write, h]

theorem Chan.write_answers {c : Chan} {g : Nat} {ts : List Turn} (h : c.turns = .answers g :: ts) (bs : List Byte) :
    c.write bs = (true, (Chan.deliver g { c with tx := c.tx ++ bs, turns := ts }).called (.write bs)) := by
  simp only [Chan.write, h]

theorem Chan.write_fails {c : Chan} {k : Nat} {ts : List Turn} (h : c.turns = .fails k :: ts) (bs : List Byte) :
    c.write bs = (false, { c with tx := c.tx ++ bs.take k, turns := ts }.called (.write bs)) := by
  simp only [Chan.write, h]

/-- The agent answers unless its next turn is a failure. -/
theorem Chan.accepts_eq_false_iff {c : Chan} : c.accepts = false ↔ ∃ k ts, c.turns = .fails k :: ts := by
  rcases hturns : c.turns with _ | ⟨g | k, ts⟩ <;> simp [Chan.accepts, hturns]

/-- A write that the agent answers: the bytes join `TX`, one call is made, no response byte is lost (R61, R71). -/
theorem Chan.write_accepted {c : Chan} (h : c.accepts = true) (bs : List Byte) :
    ∃ d, c.write bs = (true, d)
      ∧ d.tx = c.tx ++ bs ∧ d.calls = c.calls ++ [.write bs] ∧ d.incoming = c.incoming := by
  rcases hturns : c.turns with _ | ⟨g | k, ts⟩
  · exact ⟨_, Chan.write_last hturns bs, rfl, rfl, rfl⟩
  · exact ⟨_, Chan.write_answers hturns bs, rfl, rfl, Chan.deliver_incoming _ _⟩
  · have hfails : c.accepts = false := Chan.accepts_eq_false_iff.2 ⟨k, ts, hturns⟩
    rw [hfails] at h
    cases h

theorem Chan.write_refused {c : Chan} (h : c.accepts = false) (bs : List Byte) : (c.write bs).1 = false := by
  obtain ⟨k, ts, hturns⟩ := Chan.accepts_eq_false_iff.1 h
  rw [Chan.write_fails hturns]

theorem flush_accepted {s : State} (hq : s.qcur ≠ 0) {d : Chan}
    (hw : s.chan.write (s.qbuf.region s.qcur) = (true, d)) : flush s = .ok () { s with qcur := 0, chan := d } := by
  simp [flush, hq, hw]

theorem flush_refused {s : State} (hq : s.qcur ≠ 0) (h : s.chan.accepts = false) :
    flush s = .raised .transport .write { s with qcur := 0, chan := (s.chan.write (s.qbuf.region s.qcur)).2 } := by
  simp [flush, hq, Chan.write_refused h]

/-- Settles O18: an empty queue, a write that is answered, a write that fails. -/
theorem flushSendsTheRegion : Obligations.FlushSendsTheRegion := fun s hopen => by
  refine ⟨fun hq => exec_qFlush_ok hopen (flush_empty s hq), fun hq hacc hwritten => ?_, fun hq hacc => ?_⟩
  · obtain ⟨d, hd, htx, hcalls, hinc⟩ := Chan.write_accepted hacc (s.qbuf.region s.qcur)
    exact ⟨_, _, exec_qFlush_ok hopen (flush_accepted hq hd), rfl, s.qbuf.region_length s.qcur,
      fun a ha => (s.qbuf.region_getElem? ha (hwritten a ha)).symm, htx, hcalls, hinc⟩
  · refine ⟨_, exec_qFlush_raised hopen (flush_refused hq hacc), ?_⟩
    rw [faultLate_transport]

/-! ## Q.READ -/

/-- The channel after an answered `read(n)`: `g` response bytes have reached `RX`, up to `n` bytes have left it, and the
turns `ts` are to come (R62, R68). -/
def Chan.chunk (g n : Nat) (ts : List Turn) (c : Chan) : Chan :=
  ((Chan.deliver g { c with turns := ts }).takeRx n).2

/-- What a `read` takes and what is incoming after it are what was incoming before (R62, R71). -/
theorem Chan.take_rx_append_incoming (n : Nat) (c : Chan) :
    c.rx.take n ++ (c.takeRx n).2.incoming = c.incoming := by
  have htaken : (c.takeRx n).2.incoming = c.rx.drop n ++ c.inFlight ++ c.eng.gathered := rfl
  rw [htaken, List.append_assoc, ← List.append_assoc, List.take_append_drop, ← List.append_assoc, Chan.incoming]

section Chunk

variable (g n : Nat) (ts : List Turn) (c : Chan)

@[simp] theorem Chan.chunk_rx : (c.chunk g n ts).rx = (c.arrived g).drop n := rfl

@[simp] theorem Chan.chunk_inFlight : (c.chunk g n ts).inFlight = c.inFlight.drop g := rfl

@[simp] theorem Chan.chunk_gathered :
    (c.chunk g n ts).eng.gathered = c.eng.gathered.drop (g - c.inFlight.length) := rfl

@[simp] theorem Chan.chunk_turns : (c.chunk g n ts).turns = ts := rfl

@[simp] theorem Chan.chunk_calls : (c.chunk g n ts).calls = c.calls ++ [.read n] := rfl

/-- The chunk that leaves `RX` and what is incoming after it are what was incoming before (R71). -/
theorem Chan.take_arrived_append_chunk_incoming :
    (c.arrived g).take n ++ (c.chunk g n ts).incoming = c.incoming :=
  (Chan.take_rx_append_incoming n _).trans (Chan.deliver_incoming _ _)

/-- `RX` grows with the responses that arrive, as far as there are any (R68). -/
theorem Chan.arrived_length :
    (c.arrived g).length = c.rx.length + min g (c.inFlight.length + c.eng.gathered.length) := by
  simp [Chan.arrived]

/-- After a chunk that empties `RX`, a later arrival brings what would have arrived in one go besides. -/
theorem Chan.chunk_arrived_length (h : Nat) (hshort : (c.arrived g).length ≤ n) :
    (c.arrived g).length + ((c.chunk g n ts).arrived h).length = (c.arrived (g + h)).length := by
  have hrx : (c.chunk g n ts).rx = [] := List.drop_of_length_le hshort
  simp only [Chan.arrived_length, hrx, Chan.chunk_inFlight, Chan.chunk_gathered, List.length_nil, List.length_drop]
  omega

end Chunk

/-- A read lets the engine finish first; here it has nothing left to execute (R113). -/
theorem Chan.readExact_settled {c : Chan} {n : Nat} (hn : 0 < n) (htx : c.tx = []) :
    c.readExact n = c.readLoop n c.turns [] := by
  rw [Chan.readExact, if_neg (by omega), Chan.settle_nil htx]

/-- An answered call that brings enough ends the read: with the bytes obtained before, the first `n` of the stream, and
the rest of it is still to be read (R62, R113). -/
theorem Chan.readLoop_answers_enough {c : Chan} {n g : Nat} (ts : List Turn) {acc : List Byte} (hacc : acc.length ≤ n)
    (h : n ≤ acc.length + (c.arrived g).length) :
    ∃ d, c.readLoop n (.answers g :: ts) acc = (.ok ((acc ++ c.incoming).take n), d)
      ∧ d.incoming = (acc ++ c.incoming).drop n ∧ d.turns = ts ∧ d.calls = c.calls ++ [.read (n - acc.length)] := by
  have hlen : (acc ++ (c.arrived g).take (n - acc.length)).length = n := by
    rw [List.length_append, List.length_take]
    omega
  have hsplit : acc ++ (c.arrived g).take (n - acc.length) ++ (c.chunk g (n - acc.length) ts).incoming
      = acc ++ c.incoming := by
    rw [List.append_assoc, Chan.take_arrived_append_chunk_incoming]
  refine ⟨c.chunk g (n - acc.length) ts, ?_, ?_, c.chunk_turns .., c.chunk_calls ..⟩
  · rw [← hsplit, List.take_left' hlen]
    exact if_pos hlen.ge
  · rw [← hsplit, List.drop_left' hlen]

/-- An answered call that brings too few goes on with all it brought. -/
theorem Chan.readLoop_answers_short {c : Chan} {n g : Nat} (ts : List Turn) {acc : List Byte}
    (h : acc.length + (c.arrived g).length < n) :
    c.readLoop n (.answers g :: ts) acc
      = (c.chunk g (n - acc.length) ts).readLoop n ts (acc ++ c.arrived g) := by
  have htake : (c.arrived g).take (n - acc.length) = c.arrived g := List.take_of_length_le (by omega)
  have hacc : acc ++ (c.arrived g).take (n - acc.length) = acc ++ c.arrived g := by rw [htake]
  have hlen : ¬ n ≤ (acc ++ (c.arrived g).take (n - acc.length)).length := by
    rw [hacc, List.length_append]
    omega
  exact (if_neg hlen).trans (congrArg (Chan.readLoop n ts · _) hacc)

/-- A read with no turn left and too few incoming times out with their number, and `RX` is empty (R113, X12; log entry
11). -/
theorem Chan.readLoop_last_short {c : Chan} {n : Nat} (h : c.incoming.length < n) :
    ∃ d, c.readLoop n [] [] = (.error c.incoming.length, d) ∧ d.rx = [] := by
  have hrx : ({ c with turns := [] } : Chan).deliverAll.rx = c.incoming := Chan.deliverAll_rx _
  have htake : c.incoming.take n = c.incoming := List.take_of_length_le (by omega)
  have hdrop : c.incoming.drop n = [] := List.drop_of_length_le (by omega)
  simp only [Chan.readLoop, Chan.takeRx, hrx, List.length_nil, Nat.sub_zero, List.nil_append, htake, hdrop,
    if_neg (Nat.not_le.2 h)]
  split
  · rename_i hnil
    exact ⟨_, by rw [hnil]; rfl, rfl⟩
  · exact ⟨_, rfl, rfl⟩

section Turns

variable {c : Chan} {n g : Nat} {ts : List Turn}

/-- Past the agent's last turn, enough incoming: one call, and the rest of them is in `RX` (R62, R113). -/
theorem Chan.readExact_last_enough (hn : 0 < n) (htx : c.tx = []) (hturns : c.turns = [])
    (h : n ≤ c.incoming.length) :
    ∃ d, c.readExact n = (.ok (c.incoming.take n), d)
      ∧ d.rx = c.incoming.drop n ∧ d.calls = c.calls ++ [.read n] := by
  have hread := Chan.readExact_last n c hn
  rw [Chan.settle_nil htx] at hread
  exact ⟨_, hread h hturns, congrArg (List.drop n) c.deliverAll_rx, rfl⟩

/-- Past the agent's last turn, too few incoming: the timeout (R113, R291; log entry 11). -/
theorem Chan.readExact_last_short (htx : c.tx = []) (hturns : c.turns = []) (h : c.incoming.length < n) :
    ∃ d, c.readExact n = (.error c.incoming.length, d) ∧ d.rx = [] := by
  rw [Chan.readExact_settled (by omega) htx, hturns]
  exact Chan.readLoop_last_short h

/-- A first call that brings too few: the read goes on from the chunk. -/
theorem Chan.readExact_first_short {t : Turn} (htx : c.tx = []) (hturns : c.turns = .answers g :: t :: ts)
    (hshort : (c.arrived g).length < n) :
    c.readExact n = (c.chunk g n (t :: ts)).readLoop n (t :: ts) (c.arrived g) := by
  rw [Chan.readExact_settled (by omega) htx, hturns, Chan.readLoop_answers_short _ (by simpa using hshort)]
  rfl

/-- After a first call that brought too few, the incoming bytes are those behind the ones it brought. -/
theorem Chan.first_chunk_incoming (hshort : (c.arrived g).length < n) (ts : List Turn) :
    c.arrived g ++ (c.chunk g n ts).incoming = c.incoming := by
  have hsplit := c.take_arrived_append_chunk_incoming g n ts
  rwa [List.take_of_length_le (by omega)] at hsplit

/-- Two chunks that together bring enough: the two calls return the first `n` of the stream and leave the rest (R62,
R113). -/
theorem Chan.readExact_two_chunks {h : Nat} (htx : c.tx = []) (hturns : c.turns = .answers g :: .answers h :: ts)
    (hshort : (c.arrived g).length < n) (henough : n ≤ (c.arrived (g + h)).length) :
    ∃ d, c.readExact n = (.ok (c.incoming.take n), d) ∧ d.incoming = c.incoming.drop n ∧ d.turns = ts
      ∧ d.calls = c.calls ++ [.read n, .read (n - (c.arrived g).length)] := by
  have hboth : n ≤ (c.arrived g).length + ((c.chunk g n (.answers h :: ts)).arrived h).length :=
    henough.trans (c.chunk_arrived_length g n _ h hshort.le).ge
  obtain ⟨d, hread, hinc, hts, hcalls⟩ := Chan.readLoop_answers_enough ts hshort.le hboth
  rw [Chan.first_chunk_incoming hshort] at hread hinc
  refine ⟨d, (Chan.readExact_first_short htx hturns hshort).trans hread, hinc, hts, ?_⟩
  rw [hcalls, Chan.chunk_calls, List.append_assoc, List.singleton_append]

/-- A first chunk that is too short, then a call that fails: the number of its bytes, which are lost (R113, R291). -/
theorem Chan.readExact_chunk_fails {k : Nat} (htx : c.tx = []) (hturns : c.turns = .answers g :: .fails k :: ts)
    (hshort : (c.arrived g).length < n) :
    ∃ d, c.readExact n = (.error (c.arrived g).length, d) ∧ d.rx = []
      ∧ d.incoming = c.incoming.drop (c.arrived g).length := by
  refine ⟨_, Chan.readExact_first_short htx hturns hshort, ?_, ?_⟩
  · exact List.drop_of_length_le hshort.le
  · rw [← Chan.first_chunk_incoming hshort (.fails k :: ts), List.drop_left]
    rfl

end Turns

/-- Settles O19: the read's answer at the transport in each case, and the operation's end with it. -/
theorem readReturnsExactlyN : Obligations.ReadReturnsExactlyN := fun s n hopen => by
  refine ⟨?_, fun hn htx hturns henough => ?_, fun htx hturns hshort => ?_, fun g ts htx hshort =>
    ⟨fun h hturns henough => ?_, fun k hturns => ?_⟩⟩
  · rintro rfl
    exact exec_qRead_ok hopen rfl
  · obtain ⟨d, hread, hrx, hcalls⟩ := Chan.readExact_last_enough hn htx hturns henough
    exact ⟨_, exec_qRead_ok hopen hread, rfl, hrx, hcalls⟩
  · obtain ⟨d, hread, hrx⟩ := Chan.readExact_last_short htx hturns hshort
    exact ⟨_, exec_qRead_raised hopen hread, faultLate_transport _ _ _, hrx⟩
  · obtain ⟨d, hread, hinc, hts, hcalls⟩ := Chan.readExact_two_chunks htx hturns hshort henough
    exact ⟨_, exec_qRead_ok hopen hread, rfl, hinc, hts, hcalls⟩
  · obtain ⟨d, hread, hrx, hinc⟩ := Chan.readExact_chunk_fails htx hturns hshort
    exact ⟨_, exec_qRead_raised hopen hread, faultLate_transport _ _ _, hrx, hinc⟩

/-! ## Q.COUNT -/

/-- A count lets the engine finish first; here it has nothing left to execute (R114). -/
theorem count_settled {s : State} (htx : s.chan.tx = []) {r : Bool} {d : Chan} (hask : s.chan.ask .count = (r, d)) :
    count s = if r then .ok d.rx.length (s.withChan d) else .raised .transport .count (s.withChan d) := by
  rw [count, Chan.count, Chan.settle_nil htx, hask]
  cases r <;> rfl

theorem Chan.ask_answers {c : Chan} {g : Nat} {ts : List Turn} (h : c.turns = .answers g :: ts) (t : TCall) :
    c.ask t = (true, (Chan.deliver g { c with turns := ts }).called t) := by
  simp [Chan.ask, h]

theorem Chan.ask_fails {c : Chan} {k : Nat} {ts : List Turn} (h : c.turns = .fails k :: ts) (t : TCall) :
    c.ask t = (false, { c with turns := ts }.called t) := by
  simp [Chan.ask, h]

/-- Settles O20: a count that is answered after a delivery, and one that fails. -/
theorem countReturnsTheLengthOfRx : Obligations.CountReturnsTheLengthOfRx := fun s ts hopen htx => by
  have hpre : needOpen s = none := needOpen_eq_none.2 hopen
  refine ⟨fun g hturns => ?_, fun k hturns => ?_⟩
  · exact ⟨_, runOp_ok .qCount needOpen count .nat s hpre (count_settled htx (Chan.ask_answers hturns .count)), rfl,
      Chan.deliver_incoming _ _⟩
  · have hexec := runOp_raised .qCount needOpen count .nat s hpre (count_settled htx (Chan.ask_fails hturns .count))
    exact hexec.trans (congrArg _ (faultLate_transport _ _ _))

end Sys2Proof.Machine

/-! PROOF. The clock configurator (spec/41_clock.md R120 to R124). What the divisor is, least or clamped, what bounds the
rate and how the rate grows all follow from one equivalence, `clkDivisor_le_iff`. -/

namespace Sys2Proof.Machine

/-! ## The divisor (R122) -/

@[simp] theorem clkDivisor_zero (divMax base : Nat) : clkDivisor divMax base 0 = divMax := rfl

theorem clkDivisor_pos (divMax base : Nat) {hz : Nat} (h : 0 < hz) :
    clkDivisor divMax base hz = min divMax (base ⌈/⌉ (2 * hz) - 1) := if_neg h.ne'

theorem clkDivisor_le_divMax (divMax base hz : Nat) : clkDivisor divMax base hz ≤ divMax := by
  rcases hz.eq_zero_or_pos with rfl | hpos
  · exact le_rfl
  · rw [clkDivisor_pos divMax base hpos]
    exact min_le_left _ _

/-- `d` bounds the divisor from above exactly when it is admissible or no smaller than the clamp. -/
theorem clkDivisor_le_iff {divMax base hz d : Nat} (hbase : 1 ≤ base) :
    clkDivisor divMax base hz ≤ d ↔ divMax ≤ d ∨ base ≤ 2 * (1 + d) * hz := by
  rcases hz.eq_zero_or_pos with rfl | hpos
  · have hnone : ¬ base ≤ 2 * (1 + d) * 0 := by omega
    rw [clkDivisor_zero, or_iff_left hnone]
  · have hceil : base ⌈/⌉ (2 * hz) ≤ d + 1 ↔ base ≤ 2 * hz * (d + 1) := ceilDiv_le_iff_le_mul (by omega)
    have hcomm : 2 * hz * (d + 1) = 2 * (1 + d) * hz := by ring
    rw [clkDivisor_pos divMax base hpos, min_le_iff, Nat.sub_le_iff_le_add, hceil, hcomm]

/-- The divisor is admissible unless it is clamped. -/
theorem clkDivisor_admissible {divMax base hz : Nat} (hbase : 1 ≤ base) :
    divMax ≤ clkDivisor divMax base hz ∨ base ≤ 2 * (1 + clkDivisor divMax base hz) * hz :=
  (clkDivisor_le_iff hbase).1 le_rfl

/-- A larger request has no larger divisor on the same base. -/
theorem clkDivisor_anti {divMax base hz hz' : Nat} (hbase : 1 ≤ base) (h : hz ≤ hz') :
    clkDivisor divMax base hz' ≤ clkDivisor divMax base hz :=
  (clkDivisor_le_iff hbase).2 ((clkDivisor_admissible hbase).imp_right fun ha => ha.trans (Nat.mul_le_mul_left _ h))

/-- Settles O21: the least admissible divisor, the clamp, 0 Hz and the closed form. -/
theorem divisorIsTheLeast : Obligations.DivisorIsTheLeast := fun base hz hbase => by
  refine ⟨fun d hd hadm hleast => ?_, fun hnone => ?_, rfl, fun hpos => ?_⟩
  · have hle : clkDivisor 0xFFFF base hz ≤ d := (clkDivisor_le_iff hbase).2 (.inr hadm)
    refine hle.eq_of_not_lt fun hlt => ?_
    rcases clkDivisor_admissible (divMax := 0xFFFF) (hz := hz) hbase with hclamp | hsmaller
    · omega
    · exact hleast _ hlt hsmaller
  · have hle := clkDivisor_le_divMax 0xFFFF base hz
    exact hle.antisymm ((clkDivisor_admissible hbase).resolve_right (hnone _ hle))
  · rw [clkDivisor_pos 0xFFFF base hpos, Nat.ceilDiv_eq_add_pred_div, Nat.add_sub_assoc (by omega)]

/-! ## The rate with the default parameters (R121, R124) -/

/-- The two bases: fast for an enhanced chip and a request above 12 MHz, slow otherwise. -/
theorem clkBase_params_cases (enh : Bool) (hz : Nat) :
    ((enh && decide (12000000 < hz)) = true ∧ 12000000 < hz ∧ clkBase Config.params enh hz = 60000000)
      ∨ ((enh && decide (12000000 < hz)) = false ∧ clkBase Config.params enh hz = 12000000) := by
  cases hfast : enh && decide (12000000 < hz) with
  | true =>
    have hhz : 12000000 < hz := of_decide_eq_true (Bool.and_eq_true_iff.1 hfast).2
    exact .inl ⟨rfl, hhz, if_pos hfast⟩
  | false => exact .inr ⟨rfl, if_neg (Bool.eq_false_iff.1 hfast)⟩

theorem clkBase_params_pos (enh : Bool) (hz : Nat) : 1 ≤ clkBase Config.params enh hz := by
  rcases clkBase_params_cases enh hz with ⟨-, -, hbase⟩ | ⟨-, hbase⟩ <;> omega

theorem clkDivisorFor_params_le (enh : Bool) (hz : Nat) : clkDivisorFor Config.params enh hz ≤ 0xFFFF :=
  clkDivisor_le_divMax _ _ _

/-- The fast base is selected for every larger request too. -/
theorem clkBase_params_fast_of_le {enh : Bool} {hz hz' : Nat} (h : hz ≤ hz')
    (hfast : clkBase Config.params enh hz = 60000000) : clkBase Config.params enh hz' = 60000000 := by
  rcases clkBase_params_cases enh hz with ⟨hsel, hhz, -⟩ | ⟨-, hslow⟩
  · have henh : enh = true := (Bool.and_eq_true_iff.1 hsel).1
    exact if_pos (Bool.and_eq_true_iff.2 ⟨henh, decide_eq_true (hhz.trans_le h)⟩)
  · omega

/-- From 100 Hz on the divisor is admissible: the clamp itself is (R124 (a)). -/
theorem clkBase_params_le_rate (enh : Bool) {hz : Nat} (h : 100 ≤ hz) :
    clkBase Config.params enh hz ≤ 2 * (1 + clkDivisorFor Config.params enh hz) * hz := by
  rcases clkDivisor_admissible (divMax := 0xFFFF) (hz := hz) (clkBase_params_pos enh hz) with hclamp | hadm
  · have hD : clkDivisorFor Config.params enh hz = 0xFFFF := (clkDivisorFor_params_le enh hz).antisymm hclamp
    rw [hD]
    rcases clkBase_params_cases enh hz with ⟨-, hhz, hbase⟩ | ⟨-, hbase⟩ <;> omega
  · exact hadm

/-- Above 12 MHz the fast base needs no divisor above 2: its smallest rate there is 10 MHz (R124). -/
theorem clkDivisorFor_params_fast_le {enh : Bool} {hz : Nat} (h : clkBase Config.params enh hz = 60000000) :
    clkDivisorFor Config.params enh hz ≤ 2 := by
  refine (clkDivisor_le_iff (clkBase_params_pos enh hz)).2 (.inr ?_)
  rcases clkBase_params_cases enh hz with ⟨-, hhz, -⟩ | ⟨-, hslow⟩ <;> omega

theorem clkDivisorFor_params_anti {enh : Bool} {hz hz' : Nat} (h : hz ≤ hz')
    (hsame : clkBase Config.params enh hz' = clkBase Config.params enh hz) :
    clkDivisorFor Config.params enh hz' ≤ clkDivisorFor Config.params enh hz := by
  rw [clkDivisorFor, hsame]
  exact clkDivisor_anti (clkBase_params_pos enh hz) h

/-- A larger request has no smaller rate, also across the switch of the base (R124 (b)). -/
theorem clkRate_params_mono (enh : Bool) {hz hz' : Nat} (h : hz ≤ hz') :
    clkBase Config.params enh hz * (2 * (1 + clkDivisorFor Config.params enh hz'))
      ≤ clkBase Config.params enh hz' * (2 * (1 + clkDivisorFor Config.params enh hz)) := by
  by_cases hsame : clkBase Config.params enh hz' = clkBase Config.params enh hz
  · have hanti := clkDivisorFor_params_anti h hsame
    rw [hsame]
    exact Nat.mul_le_mul_left _ (by omega)
  · rcases clkBase_params_cases enh hz with ⟨-, -, hfast⟩ | ⟨-, hslow⟩
    · exact absurd ((clkBase_params_fast_of_le h hfast).trans hfast.symm) hsame
    · rcases clkBase_params_cases enh hz' with ⟨-, -, hfast'⟩ | ⟨-, hslow'⟩
      · have hsmall := clkDivisorFor_params_fast_le hfast'
        rw [hslow, hfast']
        omega
      · exact absurd (hslow'.trans hslow.symm) hsame

/-- No rate above 30 MHz on the fast base and 6 MHz on the slow one: a divisor of 0 halves the base (R124). -/
theorem clkBase_params_le_max (enh : Bool) (hz : Nat) :
    clkBase Config.params enh hz ≤
      2 * (1 + clkDivisorFor Config.params enh hz) * (if enh && decide (12000000 < hz) then 30000000 else 6000000) := by
  rcases clkBase_params_cases enh hz with ⟨hsel, -, hbase⟩ | ⟨hsel, hbase⟩
  · rw [hbase, if_pos hsel]
    omega
  · rw [hbase, hsel, if_neg Bool.false_ne_true]
    omega

/-- Settles O22: the bound, the range, monotonicity and the largest rates, with the values that reach them. -/
theorem clockRateIsBoundedAndMonotone : Obligations.ClockRateIsBoundedAndMonotone := fun enh hz hlow _ =>
  ⟨clkBase_params_le_rate enh hlow, clkDivisorFor_params_le enh hz, fun _ h _ => clkRate_params_mono enh h,
    clkBase_params_le_max enh hz, by decide, by decide, by cases enh <;> decide, by cases enh <;> decide, by decide⟩

/-! ## The bytes of a clock change (R120, R123) -/

theorem State.room_iff {s : State} {n : Nat} : s.room n = true ↔ s.qcur = 0 ∧ n ≤ s.par.qcap := by
  simp [State.room]

theorem divMax_lt_of_wf {p : Config.Params} (h : p.wf = true) : p.divMax < 65536 :=
  of_decide_eq_true (Bool.and_eq_true_iff.1 h).2

/-- A divisor within the clamp fits its 16-bit register (R34). -/
theorem clkDivisorFor_toNat {par : Config.Params} (h : par.wf = true) (enh : Bool) (hz : Nat) :
    (BitVec.ofNat 16 (clkDivisorFor par enh hz)).toNat = clkDivisorFor par enh hz := by
  rw [BitVec.toNat_ofNat]
  exact Nat.mod_eq_of_lt ((clkDivisor_le_divMax _ _ _).trans_lt (divMax_lt_of_wf h))

theorem clkPrescaler_flatten (par : Config.Params) (enh : Bool) (hz : Nat) :
    (clkPrescaler par enh hz).flatten = if enh then encodeCmd (if par.fLo < hz then .div5Off else .div5On) else [] := by
  cases enh with
  | false => rfl
  | true => by_cases hz' : par.fLo < hz <;> simp [clkPrescaler, clkFast, encodeCmd, hz']

/-- What a clock change emits is the encoding of its commands. -/
theorem clkEmits_flatten {par : Config.Params} (h : par.wf = true) (enh : Bool) (hz : Nat) :
    (clkEmits par enh hz).flatten = clockCmds par enh hz := by
  rw [clkEmits, List.flatten_append, clkPrescaler_flatten, clockCmds, encodeCmd, clkDivisorFor_toNat h]
  rfl

theorem clockCmds_ne_nil (par : Config.Params) (enh : Bool) (hz : Nat) : clockCmds par enh hz ≠ [] := by
  simp [clockCmds, encodeCmd]

/-- A clock change from an empty queue with room, on a channel that accepts: one transfer, and the divisor (R120). -/
theorem clkConfigure_ok {s : State} (hz : Nat) (hwf : s.par.wf = true) (hacc : s.chan.accepts = true)
    (hroom : s.room (clockCmds s.par s.cap.enh hz).length = true) :
    clkConfigure hz s = .ok (BitVec.ofNat 16 (clkDivisorFor s.par s.cap.enh hz))
      (s.sent (clockCmds s.par s.cap.enh hz)) := by
  obtain ⟨hempty, hfit⟩ := State.room_iff.1 hroom
  have hemits := clkEmits_flatten hwf s.cap.enh hz
  have hemit := emitAll_ok (clkEmits s.par s.cap.enh hz) s (by rw [hemits]; omega)
  rw [clkConfigure, hemit, Res.ok_bind, hemits, flush_append s _ hempty (clockCmds_ne_nil _ _ _) hacc, Res.ok_bind]

/-- Settles O23: `clkConfigure_ok` under the operation's check and answer. -/
theorem clockConfigureSendsPrescalerThenDivisor : Obligations.ClockConfigureSendsPrescalerThenDivisor :=
  fun s hz hopen hwf hacc hroom =>
    runOp_ok .clkConfigure needOpen (clkConfigure hz.toNat) .divisor s (needOpen_eq_none.2 hopen)
      (clkConfigure_ok hz.toNat hwf hacc hroom)

end Sys2Proof.Machine

/-! PROOF. The TAP graph and the path table (spec/42_tap.md R131 to R137, R139; 60_exceptions.md R296). That an entry is
the only shortest walk is read off `Tap.walks`, which lists every walk up to a length; that its bits visit the entry's
states in order holds of any list of states that has bits. -/

namespace Sys2Proof

/-! ## Replay (R133) -/

@[simp] theorem Tap.replay_nil (s : Tap) : s.replay [] = s := rfl

@[simp] theorem Tap.replay_cons (s : Tap) (b : Bool) (bs : List Bool) : s.replay (b :: bs) = (s.next b).replay bs := rfl

theorem Tap.replay_append (s : Tap) (xs ys : List Bool) : s.replay (xs ++ ys) = (s.replay xs).replay ys := by
  induction xs generalizing s with
  | nil => rfl
  | cons x xs ih => exact ih (s.next x)

/-- A state that a level keeps is kept by any number of clocks at that level (R131). -/
theorem Tap.replay_replicate_of_next {s : Tap} {b : Bool} (h : s.next b = s) (n : Nat) :
    s.replay (List.replicate n b) = s := by
  induction n with
  | zero => rfl
  | succ n ih => rw [List.replicate_succ, Tap.replay_cons, h, ih]

/-! ## The bits of a list of states (R136) -/

theorem Tap.next_of_stepBit {s t : Tap} {b : Bool} (h : s.stepBit t = some b) : s.next b = t := by
  unfold Tap.stepBit at h
  split at h
  · cases h; assumption
  · split at h
    · cases h; assumption
    · cases h

theorem Tap.bitsOfPath_cons {s t : Tap} {ts : List Tap} {bs : List Bool} (h : s.bitsOfPath (t :: ts) = some bs) :
    ∃ b cs, bs = b :: cs ∧ s.next b = t ∧ t.bitsOfPath ts = some cs := by
  unfold Tap.bitsOfPath at h
  split at h
  · rename_i b cs hb hcs
    cases h
    exact ⟨b, cs, rfl, Tap.next_of_stepBit hb, hcs⟩
  · cases h

/-- The bits of a list of states are one a state, and their replay visits the states in order (R136). -/
theorem Tap.bitsOfPath_visits {s : Tap} {p : List Tap} {bs : List Bool} (h : s.bitsOfPath p = some bs) :
    bs.length = p.length ∧ ∀ k < p.length, p[k]? = some (s.replay (bs.take (k + 1))) := by
  induction p generalizing s bs with
  | nil => cases h; exact ⟨rfl, fun k hk => absurd hk (Nat.not_lt_zero k)⟩
  | cons t ts ih =>
    obtain ⟨b, cs, rfl, hnext, hcs⟩ := Tap.bitsOfPath_cons h
    obtain ⟨hlen, hvisit⟩ := ih hcs
    refine ⟨congrArg (· + 1) hlen, fun k hk => ?_⟩
    rw [List.take_succ_cons, Tap.replay_cons, hnext]
    cases k with
    | zero => rfl
    | succ k => exact hvisit k (Nat.lt_of_succ_lt_succ hk)

/-! ## The path table's domain (R134, R135) -/

theorem Tap.mem_all (t : Tap) : t ∈ Tap.all := by cases t <;> decide

/-- The path table has bits for a pair exactly when the pair is of its domain (R134, R135). -/
theorem Tap.pathBits_isSome_iff (src dst : Tap) :
    (Tap.pathBits src dst).isSome = true ↔ src ∈ Tap.pathSources ∧ dst ∈ Tap.pathTargets := by
  have htable : ∀ s ∈ Tap.all, ∀ d ∈ Tap.all,
      ((Tap.pathBits s d).isSome = true ↔ s ∈ Tap.pathSources ∧ d ∈ Tap.pathTargets) := by decide
  exact htable src src.mem_all dst dst.mem_all

theorem Tap.pathBits_cases {src dst : Tap} {bs : List Bool} (h : Tap.pathBits src dst = some bs) :
    ∃ p, Tap.path src dst = some p ∧ src.bitsOfPath p = some bs := by
  unfold Tap.pathBits at h
  split at h
  · exact ⟨_, ‹_›, h⟩
  · cases h

/-! ## Every walk up to a length (R137) -/

/-- The bit sequences of at most `n` bits whose replay from a state lands on another. -/
def Tap.walks : Nat → Tap → Tap → List (List Bool)
  | 0, s, d => if s = d then [[]] else []
  | n + 1, s, d =>
    (if s = d then [[]] else []) ++ (Tap.walks n (s.next false) d).map (false :: ·)
      ++ (Tap.walks n (s.next true) d).map (true :: ·)

theorem Tap.mem_walks {n : Nat} {s d : Tap} {cs : List Bool} :
    cs ∈ Tap.walks n s d ↔ cs.length ≤ n ∧ s.replay cs = d := by
  induction n generalizing s cs with
  | zero => cases cs <;> simp [Tap.walks]
  | succ n ih =>
    cases cs with
    | nil => simp [Tap.walks]
    | cons b cs => cases b <;> simp [Tap.walks, ih]

/-- No other walk from source to target is as short as the path table's bits (R137). -/
theorem Tap.walks_pathBits {src dst : Tap} (hs : src ∈ Tap.pathSources) (hd : dst ∈ Tap.pathTargets) :
    ∃ bs, Tap.pathBits src dst = some bs ∧ bs.length ≤ 7 ∧ Tap.walks bs.length src dst = [bs] := by
  have htable : ∀ s ∈ Tap.pathSources, ∀ d ∈ Tap.pathTargets, ∃ bs ∈ Tap.pathBits s d,
      bs.length ≤ 7 ∧ Tap.walks bs.length s d = [bs] := by decide
  exact htable src hs dst hd

/-- The bits of a pair lead from source to target, are at most seven, and are the only walk that short (R134, R137). -/
theorem Tap.pathBits_shortest {src dst : Tap} (hs : src ∈ Tap.pathSources) (hd : dst ∈ Tap.pathTargets) :
    ∃ bs, Tap.pathBits src dst = some bs ∧ bs.length ≤ 7 ∧ src.replay bs = dst
      ∧ ∀ cs : List Bool, src.replay cs = dst → cs.length ≤ bs.length → cs = bs := by
  obtain ⟨bs, hbits, hlen, hwalks⟩ := Tap.walks_pathBits hs hd
  have honly : ∀ cs : List Bool, cs.length ≤ bs.length ∧ src.replay cs = dst ↔ cs = bs := fun cs => by
    rw [← Tap.mem_walks, hwalks, List.mem_singleton]
  exact ⟨bs, hbits, hlen, ((honly bs).2 rfl).2, fun cs hcs hle => (honly cs).1 ⟨hle, hcs⟩⟩

namespace Machine

/-! ## The lookups and their checks (R132, R135, R139) -/

theorem needPath_eq_none {src dst : Tap} :
    needPath src dst = none ↔ src ∈ Tap.pathSources ∧ dst ∈ Tap.pathTargets := by
  rw [needPath, check_eq_none, Tap.pathBits_isSome_iff]

theorem needPath_outside {src dst : Tap} (h : ¬ (src ∈ Tap.pathSources ∧ dst ∈ Tap.pathTargets)) :
    needPath src dst = some (.noPath, .path src dst) := by
  have hnone : (Tap.pathBits src dst).isSome = false := by
    rw [Bool.eq_false_iff, Ne, Tap.pathBits_isSome_iff]
    exact h
  rw [needPath, hnone, check_false]

/-- A lookup in the path table's domain answers the pair's bits and changes nothing else (R135). -/
theorem exec_tapPath_inside {src dst : Tap} (h : src ∈ Tap.pathSources ∧ dst ∈ Tap.pathTargets) (s : State) :
    exec (.tapPath src dst) s = .next (s.answering (.bits (pathOf src dst))) :=
  runOp_ok .tapPath (fun _ => needPath src dst) (fun s => .ok (pathOf src dst) s) .bits s (needPath_eq_none.2 h) rfl

theorem exec_tapPath_outside {src dst : Tap} (h : ¬ (src ∈ Tap.pathSources ∧ dst ∈ Tap.pathTargets)) (s : State) :
    exec (.tapPath src dst) s = .next (s.logged .noPath .tapPath (.path src dst)) :=
  runOp_early .tapPath (fun _ => needPath src dst) (fun s => .ok (pathOf src dst) s) .bits s (needPath_outside h)

theorem pathOf_eq {src dst : Tap} {bs : List Bool} (h : Tap.pathBits src dst = some bs) : pathOf src dst = bs := by
  rw [pathOf, h, Option.getD_some]

/-- Under JTAG with a trusted mirror, what `TAP.GOTO` checks is the pair (R139). -/
theorem needGoto_eq {s : State} (hopen : s.ch = .opened) (hproto : s.proto = .jtag) (hknown : s.tapKnown = true)
    (dst : Tap) : needGoto dst s = needPath s.tapCur dst := by
  rw [needGoto, needProto_eq_none.2 ⟨hopen, hproto⟩, orElse_none, needKnown, hknown, check_true, orElse_none]

/-! ## The obligations on the tables -/

/-- Settles O26: the lookup answers the table's bits, which visit the entry's states and are the only walk that short. -/
theorem pathIsTheShortestWalk : Obligations.PathIsTheShortestWalk := by
  refine ⟨rfl, fun s src dst hs hd => ?_⟩
  obtain ⟨bs, hbits, -, hreplay, honly⟩ := Tap.pathBits_shortest hs hd
  obtain ⟨p, hpath, hp⟩ := Tap.pathBits_cases hbits
  obtain ⟨hlen, hvisit⟩ := Tap.bitsOfPath_visits hp
  have hexec := exec_tapPath_inside ⟨hs, hd⟩ s
  rw [pathOf_eq hbits] at hexec
  exact ⟨p, bs, hexec, hpath, hlen, hreplay, hvisit, honly⟩

/-- Settles O27: both operations fail at their check of the pair. -/
theorem pathOutsideTheTableIsNoPath : Obligations.PathOutsideTheTableIsNoPath := by
  intro s src dst hout
  refine ⟨exec_tapPath_outside hout s, ?_⟩
  rintro hopen hproto hknown rfl
  have hcheck := (needGoto_eq hopen hproto hknown dst).trans (needPath_outside hout)
  exact runOp_early .tapGoto (needGoto dst) (tapGoto dst) .bits s hcheck

/-- Settles O24: the lookup checks nothing and answers the successor; the sixteen rows are evaluated. -/
theorem tapGraphIsTheTable : Obligations.TapGraphIsTheTable := by
  refine ⟨fun s t b => ?_, by decide⟩
  exact runOp_ok .tapNext needNothing (fun s => .ok (t.next b) s) .tap s rfl rfl

/-- Settles O25: DRSHIFT is a state from which no fewer than five ones reach RESET. -/
theorem fiveOnesReset : Obligations.FiveOnesReset := by
  refine ⟨Tap.replay_nil, Tap.replay_cons, fun s => ?_, by decide, by decide, fun k hk => ⟨.drShift, ?_⟩⟩
  · have hones : ∀ s ∈ Tap.all, s.replay [true, true, true, true, true] = .reset := by decide
    exact hones s s.mem_all
  · have hfewer : ∀ k < 5, Tap.replay .drShift (List.replicate k true) ≠ .reset := by decide
    exact hfewer k hk

end Machine

end Sys2Proof

/-! PROOF. The packing of control bits into TMS commands, what clocks do to the target's TAP, and navigation
(spec/42_tap.md R130, R138 to R140; 47_mpsse_shift_opcodes.md R221, R222). `tmsCmds` names the commands of `TMS_SEQ`,
`Chan.HeldClocks` what every data shift has in common at the target, and `Chan.settle_tmsSeq` what the engine makes of a
flushed `TMS_SEQ` of any length. -/

namespace Sys2Proof.Machine

/-! ## Control bits in a byte (R54, R86) -/

theorem packLsb_getLsbD {bits : List Bool} (h : bits.length ≤ 8) (i : Nat) :
    (packLsb bits).getLsbD i = bits.getD i false := by
  induction bits generalizing i with
  | nil => simp [packLsb]
  | cons b bs ih =>
    rw [List.length_cons] at h
    cases i with
    | zero => exact putBit_same _ _ 0 (by decide)
    | succ i =>
      rw [packLsb, putBit_other _ _ (Nat.succ_ne_zero i), List.getD_cons_succ, ← ih (by omega)]
      by_cases hi : i + 1 < 8
      · rw [BitVec.getLsbD_shiftLeft]
        simp only [hi, decide_true, Bool.true_and, Nat.succ_sub_one, Nat.not_lt.2 (Nat.le_add_left 1 i), decide_false,
          Bool.not_false]
      · have hzero : (packLsb bs).getLsbD i = false := by
          rw [ih (by omega), List.getD_eq_default _ _ (by omega)]
        rw [hzero, BitVec.getLsbD_of_ge _ _ (by omega)]

/-- The control bits of a packed byte are the bits packed (R54, R86). -/
theorem map_packLsb {bits : List Bool} (h : bits.length ≤ 8) :
    (List.range bits.length).map (packLsb bits).getLsbD = bits := by
  refine List.ext_getElem (by simp) fun i _ hi => ?_
  simp [packLsb_getLsbD h, hi]

/-! ## The commands of TMS_SEQ (R138) -/

/-- Count and data byte of each command of `TMS_SEQ`; the first argument bounds the number of commands. -/
def tmsCmds : Nat → List Bool → List (Nat × Byte)
  | 0, _ => []
  | _ + 1, [] => []
  | n + 1, b :: bs =>
    (((b :: bs).take tmsChunk).length, packLsb ((b :: bs).take tmsChunk)) :: tmsCmds n ((b :: bs).drop tmsChunk)

@[simp] theorem tmsCmds_nil (n : Nat) : tmsCmds n [] = [] := by cases n <;> rfl

theorem tmsChunks_eq (n : Nat) (bits : List Bool) :
    tmsChunks n bits = (tmsCmds n bits).flatMap fun p => encodeCmd (.tmsWn p.1 p.2) := by
  induction n generalizing bits with
  | zero => rfl
  | succ n ih =>
    cases bits with
    | nil => rfl
    | cons b bs => rw [tmsChunks, tmsCmds, List.flatMap_cons, ih]; rfl

/-- Each command clocks one to seven bits, and the rest of its byte is 0 (R86). -/
theorem tmsCmds_counts (n : Nat) (bits : List Bool) :
    ∀ p ∈ tmsCmds n bits, 1 ≤ p.1 ∧ p.1 ≤ 7 ∧ ∀ i, p.1 ≤ i → p.2.getLsbD i = false := by
  induction n generalizing bits with
  | zero => exact nofun
  | succ n ih =>
    cases bits with
    | nil => exact nofun
    | cons b bs =>
      intro p hp
      rw [tmsCmds, List.mem_cons] at hp
      obtain rfl | hp := hp
      · have hlen : ((b :: bs).take tmsChunk).length ≤ 7 := List.length_take_le _ _
        refine ⟨by simp [tmsChunk], hlen, fun i hi => ?_⟩
        rw [packLsb_getLsbD (by omega), List.getD_eq_default _ _ hi]
      · exact ih _ p hp

/-- Every command but the last carries seven bits (R138). -/
theorem tmsCmds_full (n : Nat) (bits : List Bool) : ∀ p ∈ (tmsCmds n bits).dropLast, p.1 = 7 := by
  induction n generalizing bits with
  | zero => exact nofun
  | succ n ih =>
    cases bits with
    | nil => exact nofun
    | cons b bs =>
      rw [tmsCmds]
      by_cases hrest : tmsCmds n ((b :: bs).drop tmsChunk) = []
      · rw [hrest]
        exact nofun
      · intro p hp
        rw [List.dropLast_cons_of_ne_nil hrest, List.mem_cons] at hp
        obtain rfl | hp := hp
        · have hmore : (b :: bs).drop tmsChunk ≠ [] := fun h => hrest (by rw [h, tmsCmds_nil])
          have hlong : tmsChunk < (b :: bs).length := by simpa using hmore
          exact List.length_take_of_le hlong.le
        · exact ih _ p hp

/-- The control bits of the commands are the bit sequence (R138). -/
theorem tmsCmds_bits {n : Nat} {bits : List Bool} (h : bits.length ≤ n) :
    (tmsCmds n bits).flatMap (fun p => (List.range p.1).map p.2.getLsbD) = bits := by
  induction n generalizing bits with
  | zero => rw [List.length_eq_zero_iff.1 (by omega : bits.length = 0)]; rfl
  | succ n ih =>
    cases bits with
    | nil => rfl
    | cons b bs =>
      have hchunk : ((b :: bs).take tmsChunk).length ≤ 8 := (List.length_take_le _ _).trans (by decide)
      have hrest : ((b :: bs).drop tmsChunk).length ≤ n := by
        rw [List.length_drop, tmsChunk]
        omega
      rw [tmsCmds, List.flatMap_cons, map_packLsb hchunk, ih hrest, List.take_append_drop]

/-- Settles O28: the commands are `tmsCmds`. -/
theorem tmsSequencePacksSevenBitsACommand : Obligations.TmsSequencePacksSevenBitsACommand := fun bits =>
  ⟨tmsCmds bits.length bits, tmsChunks_eq _ _, tmsCmds_counts _ _, tmsCmds_full _ _, tmsCmds_bits (Nat.le_refl _)⟩

/-- Three bytes a command, one command for each seven bits begun (R86, R138). -/
theorem tmsChunks_length {n : Nat} {bits : List Bool} (h : bits.length ≤ n) :
    (tmsChunks n bits).length = 3 * ((bits.length + 6) / 7) := by
  induction n generalizing bits with
  | zero => rw [List.length_eq_zero_iff.1 (by omega : bits.length = 0)]; rfl
  | succ n ih =>
    cases bits with
    | nil => rfl
    | cons b bs =>
      have hrest : ((b :: bs).drop tmsChunk).length = bs.length + 1 - 7 := List.length_drop
      rw [List.length_cons] at h
      rw [tmsChunks, List.length_append, ih (by omega), hrest, List.length_cons]
      simp only [encTms, List.length_cons, List.length_nil]
      omega

theorem tmsSeq_length (bits : List Bool) : (tmsSeq bits).length = 3 * ((bits.length + 6) / 7) :=
  tmsChunks_length (Nat.le_refl _)

/-! ## A run of pulses at the target (R130, R221, R222) -/

/-- With TCK and TMS driven, the target sees a level that does not change on the rising edge (R222, log entry 17). -/
theorem Engine.tapSees_of_drivesTap {e : Engine} (hd : e.drivesTap = true) {tms : Bool} {w : Option Edge}
    (hw : w ≠ some .rising ∨ tms = e.tmsLevel) : e.tapSees tms w = true := by
  simp only [Engine.drivesTap, Bool.and_eq_true, Bool.not_eq_true'] at hd
  obtain ⟨⟨⟨hclk, hsel⟩, hclkOd⟩, hselOd⟩ := hd
  obtain hw | rfl := hw <;> simp [Engine.tapSees, *]

/-- Which pins the engine drives depends on directions and masks alone, which no shift changes. -/
theorem Chan.SameStreams.drivesTap {c d : Chan} (h : c.SameStreams d) : d.eng.drivesTap = c.eng.drivesTap := by
  obtain ⟨-, -, -, -, -, -, -, -, -, -, -, -, -, -, -, -, -, -, -, hod, -, hdir, -, -⟩ := h
  simp only [Engine.drivesTap, hod, hdir]

theorem Chan.pulse_drivesTap (w r : Option Edge) (dout tms : Bool) (c : Chan) :
    (c.pulse w r dout tms).2.eng.drivesTap = c.eng.drivesTap := by
  obtain ⟨_, -, -, -, _, _, _, hc⟩ := c.pulse_spec w r dout tms
  rw [hc]
  rfl

theorem Chan.pulse_tmsLevel (w r : Option Edge) (dout tms : Bool) (c : Chan) :
    (c.pulse w r dout tms).2.eng.tmsLevel = tms := by
  obtain ⟨_, -, -, -, _, _, _, hc⟩ := c.pulse_spec w r dout tms
  rw [hc]
  exact putBit_same _ _ _ (by decide)

/-- A pulse the target sees moves it to its successor (R130). -/
theorem Chan.pulse_target {c : Chan} {w : Option Edge} {tms : Bool} (hd : c.eng.drivesTap = true)
    (hw : w ≠ some .rising ∨ tms = c.eng.tmsLevel) (r : Option Edge) (dout : Bool) :
    (c.pulse w r dout tms).2.target = c.target.next tms := by
  obtain ⟨-, d, n, hsample⟩ := c.sample_spec r dout
  simp [Chan.pulse, Chan.clockTap, hsample, Engine.tapSees_of_drivesTap hd hw]

/-- A run of pulses replays its TMS levels at the target, when none of them changes on the rising edge (R130, R140). -/
theorem Chan.pulses_target {c : Chan} {w : Option Edge} {ls : List (Bool × Bool)} (hd : c.eng.drivesTap = true)
    (hw : w ≠ some .rising ∨ ∀ x ∈ ls, x.2 = c.eng.tmsLevel) (r : Option Edge) :
    (c.pulses w r ls).2.target = c.target.replay (ls.map Prod.snd) := by
  induction ls generalizing c with
  | nil => rfl
  | cons x ls ih =>
    have hx : w ≠ some .rising ∨ x.2 = c.eng.tmsLevel := hw.imp_right fun h => h x List.mem_cons_self
    have hrest : w ≠ some .rising ∨ ∀ y ∈ ls, y.2 = (c.pulse w r x.1 x.2).2.eng.tmsLevel := by
      refine hw.imp_right fun h y hy => ?_
      rw [Chan.pulse_tmsLevel, h x List.mem_cons_self, h y (List.mem_cons_of_mem _ hy)]
    have hd' : (c.pulse w r x.1 x.2).2.eng.drivesTap = true := by rw [Chan.pulse_drivesTap, hd]
    rw [Chan.pulses, ih hd' hrest, Chan.pulse_target hd hx, List.map_cons, Tap.replay_cons]

/-- Pulses at the held level leave TMS at it. -/
theorem Chan.pulses_tmsLevel {c : Chan} {ls : List (Bool × Bool)} (h : ∀ x ∈ ls, x.2 = c.eng.tmsLevel)
    (w r : Option Edge) : (c.pulses w r ls).2.eng.tmsLevel = c.eng.tmsLevel := by
  induction ls generalizing c with
  | nil => rfl
  | cons x ls ih =>
    have hlevel : (c.pulse w r x.1 x.2).2.eng.tmsLevel = c.eng.tmsLevel := by
      rw [Chan.pulse_tmsLevel, h x List.mem_cons_self]
    have hrest : ∀ y ∈ ls, y.2 = (c.pulse w r x.1 x.2).2.eng.tmsLevel := fun y hy => by
      rw [hlevel, h y (List.mem_cons_of_mem _ hy)]
    rw [Chan.pulses, ih hrest, hlevel]

/-! ## Data shifts at the target (R221) -/

/-- What `n` clocks of a data shift do for the target: TMS stays driven at its level, and the target replays that level `n`
times. -/
structure Chan.HeldClocks (c : Chan) (n : Nat) (e : Chan) : Prop where
  drives : e.eng.drivesTap = c.eng.drivesTap
  level : e.eng.tmsLevel = c.eng.tmsLevel
  target : c.eng.drivesTap = true → e.target = c.target.replay (List.replicate n c.eng.tmsLevel)

theorem Chan.HeldClocks.refl (c : Chan) : c.HeldClocks 0 c := ⟨rfl, rfl, fun _ => rfl⟩

theorem Chan.HeldClocks.trans {c d e : Chan} {m n : Nat} (h : c.HeldClocks m d) (k : d.HeldClocks n e) :
    c.HeldClocks (m + n) e where
  drives := k.drives.trans h.drives
  level := k.level.trans h.level
  target hd := by
    rw [k.target (h.drives.trans hd), h.target hd, h.level, List.replicate_add, Tap.replay_append]

theorem Chan.gather_held (bs : List Byte) (c : Chan) : c.HeldClocks 0 (c.gather bs) := ⟨rfl, rfl, fun _ => rfl⟩

theorem Chan.gatherBits_held (ord : BitOrder) (bits : List Bool) (c : Chan) : c.HeldClocks 0 (c.gatherBits ord bits) :=
  ⟨rfl, rfl, fun _ => rfl⟩

theorem Chan.dataPulses_held (w r : Option Edge) (bits : List Bool) (c : Chan) :
    c.HeldClocks bits.length (c.dataPulses w r bits).2 := by
  have hheld : ∀ x ∈ bits.map fun b => (b, c.eng.tmsLevel), x.2 = c.eng.tmsLevel := by simp
  refine ⟨(c.dataPulses_same w r bits).drivesTap, Chan.pulses_tmsLevel hheld w r, fun hd => ?_⟩
  rw [Chan.dataPulses, Chan.pulses_target hd (.inr hheld), List.map_map]
  simp [Function.comp_def, List.map_const']

theorem bitsOf_length (ord : BitOrder) (d : Byte) : (bitsOf ord d).length = 8 := by cases ord <;> simp [bitsOf]

theorem Chan.shiftBytes_held (ord : BitOrder) (w r : Option Edge) (ds : List Byte) (c : Chan) :
    c.HeldClocks (8 * ds.length) (c.shiftBytes ord w r ds).2 := by
  induction ds generalizing c with
  | nil => exact .refl c
  | cons d ds ih =>
    have hcount : 8 * (d :: ds).length = (bitsOf ord d).length + 8 * ds.length := by
      rw [bitsOf_length, List.length_cons]
      omega
    rw [hcount]
    exact (c.dataPulses_held w r (bitsOf ord d)).trans (ih _)

theorem Chan.readBytes_held (ord : BitOrder) (r : Edge) (n : Nat) (c : Chan) :
    c.HeldClocks (8 * n) (c.readBytes ord r n).2 := by
  induction n generalizing c with
  | zero => exact .refl c
  | succ n ih =>
    have hcount : 8 * (n + 1) = (List.replicate 8 c.eng.dataOut).length + 8 * n := by
      rw [List.length_replicate]
      omega
    rw [hcount]
    exact (c.dataPulses_held none (some r) _).trans (ih _)

theorem Chan.outBytes_held (ord : BitOrder) (w : Edge) (d : List Byte) (c : Chan) :
    c.HeldClocks (8 * d.length) (c.outBytes ord w d) := c.shiftBytes_held ord (some w) none d

theorem Chan.ioBytes_held (ord : BitOrder) (w r : Edge) (d : List Byte) (c : Chan) :
    c.HeldClocks (8 * d.length) (c.ioBytes ord w r d) :=
  (c.shiftBytes_held ord (some w) (some r) d).trans (Chan.gather_held _ _)

theorem Chan.inBytes_held (ord : BitOrder) (r : Edge) (n : Nat) (c : Chan) :
    c.HeldClocks (8 * n) (c.inBytes ord r n) := (c.readBytes_held ord r n).trans (Chan.gather_held _ _)

/-- A bit count in range is the count; out of range it is some count up to 8 (R84, log entry 16). -/
theorem Chan.bitCount_spec (k : Nat) (c : Chan) :
    (c.bitCount k).1 ≤ 8 ∧ (1 ≤ k ∧ k ≤ 8 → (c.bitCount k).1 = k) ∧ c.HeldClocks 0 (c.bitCount k).2 := by
  by_cases h : 1 ≤ k ∧ k ≤ 8
  · rw [c.bitCount_ok h]
    exact ⟨h.2, fun _ => rfl, .refl c⟩
  · rw [Chan.bitCount, if_neg h]
    exact ⟨(Config.freeBitCount c.fresh).isLt, fun hk => absurd hk h, ⟨rfl, rfl, fun _ => rfl⟩⟩

/-- A bit-oriented data shift with this length field leaves this channel: held clocks, as many as the field says where it
has a meaning (log entry 16). -/
def Chan.ShiftsBits (c : Chan) (k : Nat) (e : Chan) : Prop := ∃ n, (1 ≤ k ∧ k ≤ 8 → n = k) ∧ c.HeldClocks n e

theorem Chan.ShiftsBits.gatherBits {c e : Chan} {k : Nat} (h : c.ShiftsBits k e) (ord : BitOrder) (bits : List Bool) :
    c.ShiftsBits k (e.gatherBits ord bits) := by
  obtain ⟨n, hn, hheld⟩ := h
  exact ⟨n, hn, hheld.trans (Chan.gatherBits_held ord bits e)⟩

/-- The pulses of a bit-oriented shift, for data bits as many as the count. -/
theorem Chan.dataPulses_shiftsBits {c : Chan} {k : Nat} (w r : Option Edge) {bits : List Bool}
    (h : bits.length = (c.bitCount k).1) : c.ShiftsBits k ((c.bitCount k).2.dataPulses w r bits).2 := by
  obtain ⟨-, hk, hcount⟩ := c.bitCount_spec k
  have hheld := hcount.trans ((c.bitCount k).2.dataPulses_held w r bits)
  rw [Nat.zero_add, h] at hheld
  exact ⟨_, hk, hheld⟩

theorem Chan.bitsOf_take_length (ord : BitOrder) (d : Byte) (k : Nat) (c : Chan) :
    ((bitsOf ord d).take (c.bitCount k).1).length = (c.bitCount k).1 := by
  rw [List.length_take, bitsOf_length, Nat.min_eq_left (c.bitCount_spec k).1]

theorem Chan.outBits_shifts (ord : BitOrder) (w : Edge) (k : Nat) (d : Byte) (c : Chan) :
    c.ShiftsBits k (c.outBits ord w k d) := Chan.dataPulses_shiftsBits _ _ (c.bitsOf_take_length ord d k)

theorem Chan.ioBits_shifts (ord : BitOrder) (w r : Edge) (k : Nat) (d : Byte) (c : Chan) :
    c.ShiftsBits k (c.ioBits ord w r k d) :=
  (Chan.dataPulses_shiftsBits _ _ (c.bitsOf_take_length ord d k)).gatherBits _ _

theorem Chan.inBits_shifts (ord : BitOrder) (r : Edge) (k : Nat) (c : Chan) : c.ShiftsBits k (c.inBits ord r k) :=
  (Chan.dataPulses_shiftsBits _ _ List.length_replicate).gatherBits _ _

/-! ## Every data shift and every falling-edge TMS command (R140) -/

theorem engCmd_bytesW_held (o : WriteOp) (d : List Byte) (c : Chan) :
    c.HeldClocks (8 * d.length) (engCmd (o.bytesInstr d) c) := by
  cases o
  case outWpMsb | outWnMsb | outWpLsb | outWnLsb => exact c.outBytes_held _ _ d
  case ioWnRpMsb | ioWpRnMsb | ioWnRpLsb | ioWpRnLsb => exact c.ioBytes_held _ _ _ d

theorem engCmd_bitsW_shifts (o : WriteOp) (k : Nat) (d : Byte) (c : Chan) :
    c.ShiftsBits k (engCmd (o.bitsInstr k d) c) := by
  cases o
  case outWpMsb | outWnMsb | outWpLsb | outWnLsb => exact c.outBits_shifts _ _ k d
  case ioWnRpMsb | ioWpRnMsb | ioWnRpLsb | ioWpRnLsb => exact c.ioBits_shifts _ _ _ k d

theorem engCmd_bytesR_held (o : ReadOp) (n : Nat) (c : Chan) : c.HeldClocks (8 * n) (engCmd (o.bytesInstr n) c) := by
  cases o <;> exact c.inBytes_held _ _ n

theorem engCmd_bitsR_shifts (o : ReadOp) (k : Nat) (c : Chan) : c.ShiftsBits k (engCmd (o.bitsInstr k) c) := by
  cases o <;> exact c.inBits_shifts _ _ k

theorem hostOp_bytesW (o : WriteOp) (d : List Byte) : hostOp (o.bytesInstr d) = none := by cases o <;> rfl
theorem hostOp_bitsW (o : WriteOp) (k : Nat) (d : Byte) : hostOp (o.bitsInstr k d) = none := by cases o <;> rfl
theorem hostOp_bytesR (o : ReadOp) (n : Nat) : hostOp (o.bytesInstr n) = none := by cases o <;> rfl
theorem hostOp_bitsR (o : ReadOp) (k : Nat) : hostOp (o.bitsInstr k) = none := by cases o <;> rfl

/-- The pulses of a TMS command that changes TMS on the falling edge replay its control bits (R130, R222). -/
theorem Chan.tmsPulses_target {c : Chan} (hd : c.eng.drivesTap = true) {m : Nat} (hm : m ≤ 7) (d : Byte)
    (r : Option Edge) :
    (c.pulses (some .falling) r (tmsPulses m d)).2.target = c.target.replay ((List.range m).map d.getLsbD) := by
  rw [Chan.pulses_target hd (.inl (by decide)), tmsPulses_eq hm, List.map_map]
  rfl

theorem engCmd_tms_target {o : TmsOp} (ho : tmsEdge o = .falling) {c : Chan} (hd : c.eng.drivesTap = true) {m : Nat}
    (h1 : 1 ≤ m) (h7 : m ≤ 7) (d : Byte) :
    (engCmd (o.instr m d) c).target = c.target.replay ((List.range m).map d.getLsbD) := by
  have hout : (c.tmsOut .falling m d).target = c.target.replay ((List.range m).map d.getLsbD) := by
    rw [Chan.tmsOut, c.tmsCount_ok ⟨h1, h7⟩, Chan.tmsPulses_target hd h7]
  have hio : ∀ r, (c.tmsIo .falling r m d).target = c.target.replay ((List.range m).map d.getLsbD) := fun r => by
    rw [Chan.tmsIo, c.tmsCount_ok ⟨h1, h7⟩]
    exact Chan.tmsPulses_target hd h7 d (some r)
  cases o
  case wn => exact hout
  case wnRp => exact hio .rising
  case wnRn => exact hio .falling
  all_goals cases ho

theorem State.targetAfter_command {s : State} {i : Instr} (hi : hostOp i = none) {dst : Tap}
    (h : (engCmd i s.chan).target = dst) : s.TargetAfter i dst := ⟨_, exec_command hi s, h⟩

/-- Clocks with TMS low leave a target in a shift state where it is (R131). -/
theorem Chan.HeldClocks.target_in_shift {c e : Chan} {n : Nat} (h : c.HeldClocks n e) (hd : c.eng.drivesTap = true)
    (hshift : c.target = .drShift ∨ c.target = .irShift) (hlow : c.eng.tmsLevel = false) : e.target = c.target := by
  have hstays : c.target.next false = c.target := by obtain ht | ht := hshift <;> rw [ht] <;> rfl
  rw [h.target hd, hlow, Tap.replay_replicate_of_next hstays]

/-- A bit-oriented shift with a length field in range replays the held level once a bit. -/
theorem Chan.ShiftsBits.target {c e : Chan} {k : Nat} (h : c.ShiftsBits k e) (hd : c.eng.drivesTap = true)
    (h1 : 1 ≤ k) (h8 : k ≤ 8) : e.target = c.target.replay (List.replicate k c.eng.tmsLevel) := by
  obtain ⟨n, hn, hheld⟩ := h
  rw [hheld.target hd, hn ⟨h1, h8⟩]

theorem Chan.ShiftsBits.target_in_shift {c e : Chan} {k : Nat} (h : c.ShiftsBits k e) (hd : c.eng.drivesTap = true)
    (hshift : c.target = .drShift ∨ c.target = .irShift) (hlow : c.eng.tmsLevel = false) : e.target = c.target := by
  obtain ⟨n, -, hheld⟩ := h
  exact hheld.target_in_shift hd hshift hlow

/-- Settles O10: TMS commands replay their bits, data shifts the held level. -/
theorem targetFollowsTheClocks : Obligations.TargetFollowsTheClocks := by
  intro s hd
  refine ⟨fun o m d ho h1 h7 => ?_, fun o => ⟨fun d => ?_, fun k d h1 h8 => ?_⟩,
    fun o => ⟨fun n => ?_, fun k h1 h8 => ?_⟩,
    fun hshift hlow => ⟨fun o => ⟨fun d => ?_, fun k d => ?_⟩, fun o => ⟨fun n => ?_, fun k => ?_⟩⟩⟩
  · exact State.targetAfter_command (hostOp_tms o m d) (engCmd_tms_target ho hd h1 h7 d)
  · exact State.targetAfter_command (hostOp_bytesW o d) ((engCmd_bytesW_held o d s.chan).target hd)
  · exact State.targetAfter_command (hostOp_bitsW o k d) ((engCmd_bitsW_shifts o k d s.chan).target hd h1 h8)
  · exact State.targetAfter_command (hostOp_bytesR o n) ((engCmd_bytesR_held o n s.chan).target hd)
  · exact State.targetAfter_command (hostOp_bitsR o k) ((engCmd_bitsR_shifts o k s.chan).target hd h1 h8)
  · exact State.targetAfter_command (hostOp_bytesW o d)
      ((engCmd_bytesW_held o d s.chan).target_in_shift hd hshift hlow)
  · exact State.targetAfter_command (hostOp_bitsW o k d)
      ((engCmd_bitsW_shifts o k d s.chan).target_in_shift hd hshift hlow)
  · exact State.targetAfter_command (hostOp_bytesR o n)
      ((engCmd_bytesR_held o n s.chan).target_in_shift hd hshift hlow)
  · exact State.targetAfter_command (hostOp_bitsR o k)
      ((engCmd_bitsR_shifts o k s.chan).target_in_shift hd hshift hlow)

/-! ## The engine works through a TMS_SEQ (R70, R138, R140) -/

/-- At the front of the stream stand commands that the engine executes: `rest` is left, and the target, still driven, has
replayed `bits`. -/
def Chan.WalksTarget (c : Chan) (bits : List Bool) (rest : List Byte) : Prop :=
  ∃ d : Chan, c.settle = d.settle ∧ d.tx = rest ∧ d.eng.drivesTap = true ∧ d.target = c.target.replay bits

/-- A TMS.WN command replays its control bits (R248). -/
theorem Chan.walks_tmsWn {c : Chan} {m : Nat} {d : Byte} {rest : List Byte} (h1 : 1 ≤ m) (h7 : m ≤ 7)
    (htx : c.tx = encodeCmd (.tmsWn m d) ++ rest) (hd : c.eng.drivesTap = true) :
    c.WalksTarget ((List.range m).map d.getLsbD) rest := by
  have hok : tmsCountOk m = true := by simp [tmsCountOk, h1, h7]
  have hdecode : decodeCmd c.tx = .cmd (.tmsWn m d) rest := htx ▸ TmsOp.instr_readsBack .wn d hok rest
  have hsame : Chan.SameStreams { c with tx := rest } (engCmd (.tmsWn m d) { c with tx := rest }) :=
    Chan.tmsOut_same .falling m d _
  have htarget := engCmd_tms_target (o := .wn) rfl (c := { c with tx := rest }) hd h1 h7 d
  exact ⟨_, Chan.settle_cmd hdecode, hsame.1, hsame.drivesTap.trans hd, htarget⟩

/-- TMS.WN commands at the front of the stream replay their control bits one after the other. -/
theorem Chan.walks_tmsWns {l : List (Nat × Byte)} (hl : ∀ p ∈ l, 1 ≤ p.1 ∧ p.1 ≤ 7) {c : Chan} {rest : List Byte}
    (htx : c.tx = l.flatMap (fun p => encodeCmd (.tmsWn p.1 p.2)) ++ rest) (hd : c.eng.drivesTap = true) :
    c.WalksTarget (l.flatMap fun p => (List.range p.1).map p.2.getLsbD) rest := by
  induction l generalizing c with
  | nil => exact ⟨c, rfl, htx, hd, rfl⟩
  | cons p l ih =>
    obtain ⟨h1, h7⟩ := hl p List.mem_cons_self
    rw [List.flatMap_cons, List.append_assoc] at htx
    obtain ⟨d, hsettle, hdtx, hddrives, hdtarget⟩ := Chan.walks_tmsWn h1 h7 htx hd
    obtain ⟨e, hesettle, hetx, hedrives, hetarget⟩ := ih (fun q hq => hl q (List.mem_cons_of_mem _ hq)) hdtx hddrives
    refine ⟨e, hsettle.trans hesettle, hetx, hedrives, ?_⟩
    rw [hetarget, hdtarget, List.flatMap_cons, Tap.replay_append]

/-- A flushed `TMS_SEQ` replays its bits (R138, R140). -/
theorem Chan.walks_tmsSeq {c : Chan} {bits : List Bool} {rest : List Byte} (htx : c.tx = tmsSeq bits ++ rest)
    (hd : c.eng.drivesTap = true) : c.WalksTarget bits rest := by
  have hcounts : ∀ p ∈ tmsCmds bits.length bits, 1 ≤ p.1 ∧ p.1 ≤ 7 := fun p hp => by
    obtain ⟨h1, h7, -⟩ := tmsCmds_counts _ _ p hp
    exact ⟨h1, h7⟩
  rw [tmsSeq, tmsChunks_eq] at htx
  have hwalks := Chan.walks_tmsWns hcounts htx hd
  rwa [tmsCmds_bits (Nat.le_refl _)] at hwalks

/-- When nothing follows, the target is at the end of the walk once everything flushed is executed. -/
theorem Chan.WalksTarget.settle_target {c : Chan} {bits : List Bool} (h : c.WalksTarget bits []) :
    c.settle.target = c.target.replay bits := by
  obtain ⟨d, hsettle, htx, -, htarget⟩ := h
  rw [hsettle, Chan.settle_nil htx, htarget]

/-! ## TAP.GOTO (R139) -/

@[simp] theorem Chan.write_target (bs : List Byte) (c : Chan) : (c.write bs).2.target = c.target := by
  unfold Chan.write
  split <;> rfl

@[simp] theorem Chan.write_drivesTap (bs : List Byte) (c : Chan) :
    (c.write bs).2.eng.drivesTap = c.eng.drivesTap := by
  unfold Chan.write
  split <;> rfl

theorem tmsSeq_ne_nil {bits : List Bool} (h : bits ≠ []) : tmsSeq bits ≠ [] := by
  have hbits : 0 < bits.length := List.length_pos_iff.2 h
  rw [← List.length_pos_iff, tmsSeq_length]
  omega

/-- The body where the mirror is at the target already: nothing is emitted (R138). -/
theorem tapGoto_stay {s : State} {dst : Tap} (hbits : pathOf s.tapCur dst = []) (hq : s.qcur = 0) :
    tapGoto dst s = .ok [] { s with tapCur := dst } := by
  have hemit : emit (tmsSeq []) s = .ok () s := emit_ok [] s (by simp [hq])
  rw [tapGoto, hbits, hemit, Res.ok_bind, flush_empty s hq, Res.ok_bind]

/-- The body where there is a way to go: its `TMS_SEQ` is sent and the mirror moved. -/
theorem tapGoto_go {s : State} {dst : Tap} {bits : List Bool} (hbits : pathOf s.tapCur dst = bits) (hne : bits ≠ [])
    (hroom : s.room (tmsSeq bits).length = true) (hacc : s.chan.accepts = true) :
    tapGoto dst s = .ok bits { s.sent (tmsSeq bits) with tapCur := dst } := by
  obtain ⟨hq, hfit⟩ := State.room_iff.1 hroom
  rw [tapGoto, hbits, emit_ok _ s (by omega), Res.ok_bind, flush_append s _ hq (tmsSeq_ne_nil hne) hacc, Res.ok_bind]

/-- `TAP.GOTO` from a trusted mirror, where its body completes. -/
theorem exec_tapGoto_ok {s t : State} {dst : Tap} {bits : List Bool} (hopen : s.ch = .opened) (hproto : s.proto = .jtag)
    (hknown : s.tapKnown = true) (hpair : s.tapCur ∈ Tap.pathSources ∧ dst ∈ Tap.pathTargets)
    (hbody : tapGoto dst s = .ok bits t) : exec (.tapGoto dst) s = .next (t.answering (.bits bits)) := by
  have hpre : needGoto dst s = none := (needGoto_eq hopen hproto hknown dst).trans (needPath_eq_none.2 hpair)
  exact runOp_ok .tapGoto (needGoto dst) (tapGoto dst) .bits s hpre hbody

/-- A mirror moved along the bits that the target will replay stays right (R38, R140). -/
theorem mirrored_sent_tmsSeq {s : State} {bits : List Bool} {dst : Tap} (hreplay : s.tapCur.replay bits = dst)
    (htx : s.chan.tx = []) (hacc : s.chan.accepts = true) (hd : s.chan.eng.drivesTap = true) (hm : Mirrored s) :
    (s.sent (tmsSeq bits)).chan.settle.target = dst := by
  obtain ⟨d, hwrite, hdtx, -, -⟩ := Chan.write_accepted hacc (tmsSeq bits)
  have hsent : (s.sent (tmsSeq bits)).chan.tx = tmsSeq bits ++ [] := by
    rw [State.sent_chan, hwrite, hdtx, htx, List.nil_append, List.append_nil]
  have hwalks := Chan.walks_tmsSeq hsent (by simpa using hd)
  rw [Mirrored, Chan.settle_nil htx] at hm
  rw [hwalks.settle_target, State.sent_chan, Chan.write_target, hm, hreplay]

/-- Settles O29: no bits from the target itself, else one write that the target replays. -/
theorem gotoMovesMirrorAndTarget : Obligations.GotoMovesMirrorAndTarget := by
  intro s dst hopen hproto hknown hsrc hdst hroom hacc
  obtain ⟨bs, hbits, hlen, hreplay, honly⟩ := Tap.pathBits_shortest hsrc hdst
  have hpath : pathOf s.tapCur dst = bs := pathOf_eq hbits
  obtain ⟨hq, hcap⟩ := State.room_iff.1 hroom
  by_cases hhere : s.tapCur = dst
  · have hnil : bs = [] := (honly [] hhere (Nat.zero_le _)).symm
    subst hnil
    have hexec := exec_tapGoto_ok hopen hproto hknown ⟨hsrc, hdst⟩ (tapGoto_stay hpath hq)
    exact ⟨_, [], hexec, hbits, hreplay, rfl, fun _ => ⟨rfl, rfl⟩, fun h => absurd hhere h,
      fun _ _ hm => hm.trans hhere⟩
  · have hne : bs ≠ [] := fun h => hhere (by rw [← hreplay, h, Tap.replay_nil])
    have hfit : s.room (tmsSeq bs).length = true := by
      rw [State.room_iff, tmsSeq_length]
      omega
    have hexec := exec_tapGoto_ok hopen hproto hknown ⟨hsrc, hdst⟩ (tapGoto_go hpath hne hfit hacc)
    obtain ⟨d, hwrite, hdtx, hdcalls, -⟩ := Chan.write_accepted hacc (tmsSeq bs)
    have hchan : (s.sent (tmsSeq bs)).chan = d := by rw [State.sent_chan, hwrite]
    refine ⟨_, bs, hexec, hbits, hreplay, ?_, fun h => absurd h hhere, fun _ => ?_, fun htx hd hm => ?_⟩
    · simp [State.sent, State.answering, hq]
    · exact ⟨(congrArg Chan.calls hchan).trans hdcalls, (congrArg Chan.tx hchan).trans hdtx⟩
    · exact mirrored_sent_tmsSeq hreplay htx hacc hd hm

end Sys2Proof.Machine

/-! PROOF. The JTAG controller (spec/43_jtag.md R150 to R159; 42_tap.md R133; 60_exceptions.md R296, R298). Both scans
are one operation over a `ScanReg`. `Chan.Clocks` says what a command that writes on falling edges does, `Chan.Executes`
that the engine has worked through the commands at the front of the stream, and `scanClock` what each data clock
carries. -/

namespace Sys2Proof.Machine

/-! ## JTAG.RESET (R150) -/

/-- Five ones or more lead to RESET from any state (R133). -/
theorem replay_ones_reset (s : Tap) {n : Nat} (h : 5 ≤ n) : s.replay (List.replicate n true) = .reset := by
  have hfive : ∀ s ∈ Tap.all, s.replay (List.replicate 5 true) = .reset := by decide
  rw [show n = 5 + (n - 5) by omega, List.replicate_add, Tap.replay_append, hfive s s.mem_all]
  exact Tap.replay_replicate_of_next rfl _

/-- The bits of a `TMS_SEQ` sent with nothing waiting in the stream are replayed by a driven target, wherever it was. -/
theorem settle_target_sent_tmsSeq {s : State} (bits : List Bool) (htx : s.chan.tx = []) (hacc : s.chan.accepts = true)
    (hd : s.chan.eng.drivesTap = true) :
    (s.sent (tmsSeq bits)).chan.settle.target = s.chan.target.replay bits :=
  mirrored_sent_tmsSeq (s := { s with tapCur := s.chan.target }) rfl htx hacc hd
    (congrArg Chan.target (Chan.settle_nil htx))

/-- The body where the run of ones fits and is accepted (R150). -/
theorem jtagReset_sent {s : State} {bits : List Bool} (hbits : List.replicate s.par.resetPulses true = bits)
    (hne : bits ≠ []) (hroom : s.room (tmsSeq bits).length = true) (hacc : s.chan.accepts = true) :
    jtagReset s = .ok () { s.sent (tmsSeq bits) with tapCur := .reset, tapKnown := true } := by
  obtain ⟨hq, hfit⟩ := State.room_iff.1 hroom
  rw [jtagReset, hbits, emit_ok _ s (by omega), Res.ok_bind, flush_append s _ hq (tmsSeq_ne_nil hne) hacc, Res.ok_bind]

/-- Settles O30: the ones are one write, and five of them replay to RESET. -/
theorem jtagResetRestoresTheMirror : Obligations.JtagResetRestoresTheMirror := by
  intro s hopen hproto hpulses hacc hroom
  have hne : List.replicate s.par.resetPulses true ≠ [] := by simpa using hpulses.ne'
  have hexec := runOp_ok .jtagReset (needProto .jtag) jtagReset (fun _ => .done) s
    (needProto_eq_none.2 ⟨hopen, hproto⟩) (jtagReset_sent rfl hne hroom hacc)
  refine ⟨_, hexec, rfl, fun htx hd hfive => ?_⟩
  exact (settle_target_sent_tmsSeq _ htx hacc hd).trans (replay_ones_reset _ hfive)

/-! ## The end states (R153, R154) -/

theorem stable_iff {t : Tap} : stable t = true ↔ t ∈ [Tap.reset, .idle, .drPause, .irPause] := by
  cases t <;> decide

/-- Under JTAG, what an end-state setter checks is the state (R153, R154). -/
theorem needStable_eq {s : State} (hopen : s.ch = .opened) (hproto : s.proto = .jtag) (t : Tap) :
    needStable t s = check (stable t) .configuration (.reason .notStable) := by
  rw [needStable, needProto_eq_none.2 ⟨hopen, hproto⟩, orElse_none]

/-- An end-state setter takes a stable state. -/
theorem runOp_setEnd_stable (op : HostOp) (set : State → State) {s : State} {t : Tap} (hopen : s.ch = .opened)
    (hproto : s.proto = .jtag) (ht : stable t = true) :
    runOp op (needStable t) (fun s => .ok () (set s)) (fun _ => .done) s = .next ((set s).answering .done) :=
  runOp_ok op _ _ _ s (by rw [needStable_eq hopen hproto, ht, check_true]) rfl

/-- An end-state setter refuses any other. -/
theorem runOp_setEnd_unstable (op : HostOp) (set : State → State) {s : State} {t : Tap} (hopen : s.ch = .opened)
    (hproto : s.proto = .jtag) (ht : stable t = false) :
    runOp op (needStable t) (fun s => .ok () (set s)) (fun _ => .done) s
      = .next (s.logged .configuration op (.reason .notStable)) :=
  runOp_early op _ _ _ s (by rw [needStable_eq hopen hproto, ht, check_false])

/-- Settles O31: both setters are one check and one register. -/
theorem endStatesTakeStableStatesOnly : Obligations.EndStatesTakeStableStatesOnly := by
  intro s e hopen hproto
  refine ⟨fun he => ?_, fun he => ?_⟩
  · have hstable : stable e = true := stable_iff.2 he
    exact ⟨runOp_setEnd_stable .jtagSetEndIr (fun s => { s with endIr := e }) hopen hproto hstable,
      runOp_setEnd_stable .jtagSetEndDr (fun s => { s with endDr := e }) hopen hproto hstable⟩
  · have hunstable : stable e = false := by rw [Bool.eq_false_iff, Ne, stable_iff]; exact he
    exact ⟨runOp_setEnd_unstable .jtagSetEndIr (fun s => { s with endIr := e }) hopen hproto hunstable,
      runOp_setEnd_unstable .jtagSetEndDr (fun s => { s with endDr := e }) hopen hproto hunstable⟩

/-! ## The two scans (R156, R157) -/

/-- The register a scan goes through. -/
inductive ScanReg
  | dr | ir

/-- The scan's instruction. -/
def ScanReg.instr : ScanReg → Nat → List Byte → Instr
  | .dr => .jtagScanDr
  | .ir => .jtagScanIr

/-- The scan's operation. -/
def ScanReg.op : ScanReg → HostOp
  | .dr => .jtagScanDr
  | .ir => .jtagScanIr

/-- The state the data bits are shifted in. -/
def ScanReg.shift : ScanReg → Tap
  | .dr => .drShift
  | .ir => .irShift

/-- The state the last data bit leads to. -/
def ScanReg.exit1 : ScanReg → Tap
  | .dr => .drExit1
  | .ir => .irExit1

/-- The configured end state. -/
def ScanReg.fin : ScanReg → State → Tap
  | .dr, s => s.endDr
  | .ir, s => s.endIr

/-- Both scans are one operation over their register. -/
theorem exec_scan (k : ScanReg) (n : Nat) (out : List Byte) (s : State) :
    exec (k.instr n out) s
      = runOp k.op (needScan k.shift k.exit1 (k.fin s) n out) (scan k.shift k.exit1 (k.fin s) n out) .bytes s := by
  cases k <;> rfl

theorem ScanReg.opIsOpen_op (k : ScanReg) : opIsOpen k.op = false := by cases k <;> rfl

theorem ScanReg.shift_target (k : ScanReg) : k.shift ∈ Tap.pathTargets := by cases k <;> decide

theorem ScanReg.exit1_source (k : ScanReg) : k.exit1 ∈ Tap.pathSources := by cases k <;> decide

theorem pathTargets_of_stable {t : Tap} (h : stable t = true) : t ∈ Tap.pathTargets := by
  revert h
  cases t <;> decide

/-! ## What a scan checks (R152, R298) -/

/-- The sizes checked first disagree exactly as `TransferMisfits` says. -/
theorem transferMisfit_of_misfits {par : Config.Params} {n bytes need available : Nat} {out : List Byte}
    (h : TransferMisfits par n bytes out need available) : transferMisfit par n bytes out = some (need, available) := by
  obtain ⟨rfl, rfl, rfl⟩ | ⟨hn, hlen, rfl, rfl⟩ | ⟨hn, hlen, hbound, rfl, rfl⟩ := h
  · rfl
  · have hlen' : out.length ≠ ceil8 n := hlen
    rw [transferMisfit, atLeastOne_eq_none.2 hn, exactly, if_neg hlen']
    rfl
  · have hfits : exactly (ceil8 n) out.length = none := exactly_eq_none.2 hlen
    rw [transferMisfit, atLeastOne_eq_none.2 hn, hfits, atMost, if_pos hbound]
    rfl

/-- What a scan checks under JTAG (R152). -/
theorem needScan_eq {s : State} (hopen : s.ch = .opened) (hproto : s.proto = .jtag) (shift exit1 fin : Tap) (n : Nat)
    (out : List Byte) :
    needScan shift exit1 fin n out s = orElse (needKnown s)
      (orElse (sized .sizes (transferMisfit s.par n (jtagBytes n) out))
        (orElse (needPath s.tapCur shift) (needPath exit1 fin))) := by
  rw [needScan, needProto_eq_none.2 ⟨hopen, hproto⟩, orElse_none]

theorem needKnown_known {s : State} (h : s.tapKnown = true) : needKnown s = none := by rw [needKnown, h, check_true]

theorem needKnown_unknown {s : State} (h : s.tapKnown = false) : needKnown s = some (.tapUnknown, .nothing) := by
  rw [needKnown, h, check_false]

/-- A scan whose first failing check is this one. -/
theorem exec_scan_refused {s : State} {n : Nat} {out : List Byte} {k : ScanReg} {c : FaultCode} {i : Detail}
    (h : needScan k.shift k.exit1 (k.fin s) n out s = some (c, i)) :
    exec (k.instr n out) s = .next (s.logged c k.op i) := by
  rw [exec_scan, runOp_early _ _ _ _ s h]

section Refused

variable {s : State} (hopen : s.ch = .opened) (hproto : s.proto = .jtag) (n : Nat) (out : List Byte) (k : ScanReg)
include hopen hproto

theorem exec_scan_tapUnknown (hknown : s.tapKnown = false) :
    exec (k.instr n out) s = .next (s.logged .tapUnknown k.op .nothing) := by
  apply exec_scan_refused
  rw [needScan_eq hopen hproto, needKnown_unknown hknown, orElse_some]

variable (hknown : s.tapKnown = true)
include hknown

theorem exec_scan_sizing {need available : Nat} (h : TransferMisfits s.par n ((n - 1) / 8) out need available) :
    exec (k.instr n out) s = .next (s.logged .sizing k.op (.sizes need available)) := by
  apply exec_scan_refused
  rw [needScan_eq hopen hproto, needKnown_known hknown, jtagBytes, transferMisfit_of_misfits h]
  rfl

theorem exec_scan_noPath (hn : 1 ≤ n) (hlen : out.length = (n + 7) / 8) (hbytes : (n - 1) / 8 ≤ s.par.maxBlock)
    (hsrc : s.tapCur ∉ Tap.pathSources) :
    exec (k.instr n out) s = .next (s.logged .noPath k.op (.path s.tapCur k.shift)) := by
  apply exec_scan_refused
  have hsizes : transferMisfit s.par n (jtagBytes n) out = none := transferMisfit_eq_none.2 ⟨hn, hlen, hbytes⟩
  rw [needScan_eq hopen hproto, needKnown_known hknown, hsizes, needPath_outside fun h => hsrc h.1]
  rfl

end Refused

/-- Settles O34: the first check that fails, for either scan. -/
theorem scanPreconditionsInOrder : Obligations.ScanPreconditionsInOrder := by
  intro s n out hopen hproto
  refine ⟨fun hknown => ?_, fun hknown need available h => ?_, fun hknown hn hlen hbytes hsrc => ?_⟩
  · have hscan := fun k => exec_scan_tapUnknown hopen hproto n out k hknown
    exact ⟨hscan .ir, hscan .dr⟩
  · have hscan := fun k => exec_scan_sizing hopen hproto n out k hknown h
    exact ⟨hscan .ir, hscan .dr⟩
  · have hscan := fun k => exec_scan_noPath hopen hproto n out k hknown hn hlen hbytes hsrc
    exact ⟨hscan .ir, hscan .dr⟩

/-! ## The decode of a response (R155) -/

/-- The last byte of a decode: the partial group moved down to bit 0, and the last bit above it. -/
theorem scanDecode_eq (n : Nat) (resp : List Byte) :
    scanDecode n resp = resp.take (jtagBytes n)
      ++ [putBit (if jtagBits n = 0 then 0 else byteOf resp (jtagBytes n) >>> (8 - jtagBits n)) (jtagBits n)
          ((byteOf resp (jtagBytes n + partCount (jtagBits n))).getLsbD 7)] := rfl

theorem jtagBits_lt (n : Nat) : jtagBits n < 8 := Nat.mod_lt _ (by decide)

/-- `n` bits are the whole bytes, the partial group and the last bit (R151). -/
theorem jtag_split {n : Nat} (h : 1 ≤ n) : n = 8 * jtagBytes n + jtagBits n + 1 := by
  unfold jtagBytes jtagBits
  omega

theorem ceil8_eq_jtagBytes {n : Nat} (h : 1 ≤ n) : ceil8 n = jtagBytes n + 1 := by
  unfold ceil8 jtagBytes
  omega

section Decode

variable {n : Nat} {resp : List Byte} (hlen : resp.length = scanReadLen n)
include hlen

theorem jtagBytes_le_of_readLen : jtagBytes n ≤ resp.length := by
  rw [hlen, scanReadLen]
  omega

theorem scanDecode_length : (scanDecode n resp).length = jtagBytes n + 1 := by
  rw [scanDecode_eq, List.length_append, List.length_take_of_le (jtagBytes_le_of_readLen hlen), List.length_singleton]

/-- The whole bytes of a decode are the response's. -/
theorem byteOf_scanDecode_whole {j : Nat} (hj : j < jtagBytes n) : byteOf (scanDecode n resp) j = byteOf resp j := by
  have hle := jtagBytes_le_of_readLen hlen
  have hpre : j < (resp.take (jtagBytes n)).length := by rwa [List.length_take_of_le hle]
  rw [scanDecode_eq, byteOf, List.getD_append _ _ _ _ hpre, byteOf, List.getD_eq_getElem?_getD,
    List.getElem?_take_of_lt hj, List.getD_eq_getElem?_getD]

theorem byteOf_scanDecode_last :
    byteOf (scanDecode n resp) (jtagBytes n)
      = putBit (if jtagBits n = 0 then 0 else byteOf resp (jtagBytes n) >>> (8 - jtagBits n)) (jtagBits n)
          ((byteOf resp (resp.length - 1)).getLsbD 7) := by
  have htake := List.length_take_of_le (jtagBytes_le_of_readLen hlen)
  have hlast : resp.length - 1 = jtagBytes n + partCount (jtagBits n) := by rw [hlen, scanReadLen]; omega
  rw [scanDecode_eq, byteOf, List.getD_append_right _ _ _ _ htake.le, htake, Nat.sub_self, hlast]
  rfl

/-- The last bit stands above the partial group. -/
theorem scanDecode_last_bit :
    (byteOf (scanDecode n resp) (jtagBytes n)).getLsbD (jtagBits n) = (byteOf resp (resp.length - 1)).getLsbD 7 := by
  rw [byteOf_scanDecode_last hlen, putBit_same _ _ _ (jtagBits_lt n)]

/-- The partial group stands in the low bits. -/
theorem scanDecode_partial_bit {j : Nat} (hj : j < jtagBits n) :
    (byteOf (scanDecode n resp) (jtagBytes n)).getLsbD j
      = (byteOf resp (jtagBytes n)).getLsbD (8 - jtagBits n + j) := by
  rw [byteOf_scanDecode_last hlen, putBit_other _ _ hj.ne, if_neg (by omega), BitVec.getLsbD_ushiftRight]

/-- The bits above the last are 0 (R55). -/
theorem scanDecode_clear_bit {j : Nat} (hj : jtagBits n < j) :
    (byteOf (scanDecode n resp) (jtagBytes n)).getLsbD j = false := by
  rw [byteOf_scanDecode_last hlen, putBit_other _ _ hj.ne']
  split
  · exact BitVec.getLsbD_zero
  · rw [BitVec.getLsbD_ushiftRight, BitVec.getLsbD_of_ge _ _ (by omega)]

end Decode

/-- Settles O33: the whole bytes, the partial group, the last bit, and what is above it. -/
theorem scanDecodePlacesEveryBit : Obligations.ScanDecodePlacesEveryBit := by
  intro n resp hn hread
  have hlen : resp.length = scanReadLen n := hread.symm
  have hsplit := jtag_split hn
  have hr := jtagBits_lt n
  refine ⟨?_, fun i hi => ?_, fun i hlo hhi => ?_, scanDecode_last_bit hlen, fun i hlo hhi => ?_⟩
  · rw [scanDecode_length hlen, ← ceil8_eq_jtagBytes hn]
    rfl
  · rw [byteOf_scanDecode_whole hlen (Nat.div_lt_of_lt_mul hi)]
  · change 8 * jtagBytes n ≤ i at hlo
    rw [show i / 8 = jtagBytes n by omega, scanDecode_partial_bit hlen (by omega),
      show i % 8 = i - 8 * jtagBytes n by omega]
    rfl
  · change i < 8 * ceil8 n at hhi
    rw [ceil8_eq_jtagBytes hn] at hhi
    rw [show i / 8 = jtagBytes n by omega, scanDecode_clear_bit hlen (by omega)]

/-! ## What a scan sends (R151, R152) -/

theorem byteCount_take {n : Nat} {out : List Byte} (hn : 1 ≤ n) (hlen : out.length = ceil8 n) :
    (out.take (jtagBytes n)).length = jtagBytes n :=
  List.length_take_of_le (by rw [hlen, ceil8_eq_jtagBytes hn]; exact Nat.le_succ _)

/-- The emits of a scan are its commands one after the other. -/
theorem scanEmits_flatten {n : Nat} {out : List Byte} (hn : 1 ≤ n) (hlen : out.length = ceil8 n)
    (cur shift exit1 fin : Tap) :
    (scanEmits cur shift exit1 fin n out).flatten = scanCmds cur shift exit1 fin n out := by
  have hbytes : (if jtagBytes n = 0 then [] else
      [[Config.opmap.ioBytesWnRpLsb, lo8 (jtagBytes n - 1), hi8 (jtagBytes n - 1)] ++ out.take (jtagBytes n)]).flatten
        = cmdUnless (jtagBytes n) (.ioBytesWnRpLsb (out.take (jtagBytes n))) := by
    unfold cmdUnless
    split
    · rfl
    · simp [encodeCmd, encSbw, byteCount_take hn hlen]
  have hbits : (if jtagBits n = 0 then [] else
      [[Config.opmap.ioBitsWnRpLsb, lo8 (jtagBits n - 1), lowBits (jtagBits n) (byteOf out (jtagBytes n))]]).flatten
        = cmdUnless (jtagBits n) (.ioBitsWnRpLsb (jtagBits n) (lowBits (jtagBits n) (byteOf out (jtagBytes n)))) := by
    unfold cmdUnless
    split <;> rfl
  rw [scanEmits, scanData, List.flatten_append, List.flatten_append, List.flatten_append, hbytes, hbits]
  simp only [List.flatten_cons, List.flatten_nil, List.append_nil, List.append_assoc]
  unfold scanCmds
  simp only [List.append_assoc]
  rfl

theorem scanCmds_ne_nil (cur shift exit1 fin : Tap) (n : Nat) (out : List Byte) :
    scanCmds cur shift exit1 fin n out ≠ [] := by simp [scanCmds, encodeCmd]

section Sent

variable {s : State} {n : Nat} {out cmds : List Byte} {shift exit1 fin : Tap} (hn : 1 ≤ n) (hlen : out.length = ceil8 n)
  (hcmds : cmds = scanCmds s.tapCur shift exit1 fin n out) (hroom : s.room cmds.length = true)
  (hacc : s.chan.accepts = true)
include hn hlen hcmds hroom hacc

/-- With room and a channel that accepts, a scan sends its commands in one write and goes on with its read (R152). -/
theorem scan_sent :
    scan shift exit1 fin n out s = (readExact (scanReadLen n) (s.sent cmds)).bind fun resp v =>
      .ok (scanDecode n resp) { v with tapCur := fin } := by
  have hflat : (scanEmits s.tapCur shift exit1 fin n out).flatten = cmds :=
    (scanEmits_flatten hn hlen _ _ _ _).trans hcmds.symm
  have hne : cmds ≠ [] := hcmds ▸ scanCmds_ne_nil _ _ _ _ _ _
  obtain ⟨hq, hfit⟩ := State.room_iff.1 hroom
  rw [scan, emitAll_ok _ s (by rw [hflat]; omega), Res.ok_bind, hflat, flush_append s _ hq hne hacc, Res.ok_bind]

theorem scan_answered {resp : List Byte} {c : Chan}
    (hread : (s.sent cmds).chan.readExact (scanReadLen n) = (.ok resp, c)) :
    scan shift exit1 fin n out s = .ok (scanDecode n resp) { s.sent cmds with tapCur := fin, chan := c } := by
  rw [scan_sent hn hlen hcmds hroom hacc, readExact_ok _ _ hread, Res.ok_bind]
  rfl

theorem scan_failed {got : Nat} {c : Chan}
    (hread : (s.sent cmds).chan.readExact (scanReadLen n) = (.error got, c)) :
    scan shift exit1 fin n out s = .raised .transport (.read got) { s.sent cmds with chan := c } := by
  rw [scan_sent hn hlen hcmds hroom hacc, readExact_raised _ _ hread, Res.raised_bind]
  rfl

end Sent

/-- What a scan asks of the state and its operands (R152, R298): the checks it passes. -/
structure ScanReady (s : State) (k : ScanReg) (n : Nat) (out : List Byte) : Prop where
  opened : s.ch = .opened
  jtag : s.proto = .jtag
  known : s.tapKnown = true
  source : s.tapCur ∈ Tap.pathSources
  bits : 1 ≤ n
  buffer : out.length = ceil8 n
  bytes : jtagBytes n ≤ s.par.maxBlock
  endState : stable (k.fin s) = true

theorem ScanReady.passes {s : State} {k : ScanReg} {n : Nat} {out : List Byte} (h : ScanReady s k n out) :
    needScan k.shift k.exit1 (k.fin s) n out s = none := by
  rw [needScan_eq h.opened h.jtag, needKnown_known h.known, transferMisfit_eq_none.2 ⟨h.bits, h.buffer, h.bytes⟩,
    needPath_eq_none.2 ⟨h.source, k.shift_target⟩,
    needPath_eq_none.2 ⟨k.exit1_source, pathTargets_of_stable h.endState⟩]
  rfl

section Ready

variable {s : State} {k : ScanReg} {n : Nat} {out cmds : List Byte} {c : Chan} (h : ScanReady s k n out)
  (hcmds : cmds = scanCmds s.tapCur k.shift k.exit1 (k.fin s) n out) (hroom : s.room cmds.length = true)
  (hacc : s.chan.accepts = true)
include h hcmds hroom hacc

theorem exec_scan_answered {resp : List Byte}
    (hread : (s.sent cmds).chan.readExact (scanReadLen n) = (.ok resp, c)) :
    exec (k.instr n out) s = .next { s.sent cmds with
      tapCur := k.fin s, chan := c, answer := .bytes (scanDecode n resp) } := by
  have hbody := scan_answered h.bits h.buffer hcmds hroom hacc hread
  rw [exec_scan, runOp_ok _ _ _ _ s h.passes hbody]
  rfl

theorem exec_scan_failed {got : Nat} (hread : (s.sent cmds).chan.readExact (scanReadLen n) = (.error got, c)) :
    exec (k.instr n out) s = .next { s.sent cmds with
      tapKnown := false, chan := c, answer := .fault .transport,
      flog := s.flog ++ [⟨.transport, k.op, .read got⟩] } := by
  have hbody := scan_failed h.bits h.buffer hcmds hroom hacc hread
  rw [exec_scan, runOp_raised _ _ _ _ s h.passes hbody, k.opIsOpen_op, faultLate_transport]
  simp [h.jtag, State.sent]

end Ready

/-- Settles O32: the read answered, and the read failed. -/
theorem scanSendsReadsAndDecodes : Obligations.ScanSendsReadsAndDecodes := by
  intro s n out r c hopen hproto hknown hsrc hn hlen hbytes hacc x hx hstable cmds hcmds hroom
    hread
  obtain ⟨k, rfl⟩ : ∃ k : ScanReg, x = (k.instr n out, k.op, k.shift, k.exit1, k.fin s) := by
    simp only [List.mem_cons, List.not_mem_nil, or_false] at hx
    obtain rfl | rfl := hx
    · exact ⟨.dr, rfl⟩
    · exact ⟨.ir, rfl⟩
  have hready : ScanReady s k n out := ⟨hopen, hproto, hknown, hsrc, hn, hlen, hbytes, hstable⟩
  refine ⟨?_, ?_⟩
  · rintro resp rfl
    exact exec_scan_answered hready hcmds hroom hacc hread
  · rintro got rfl
    exact exec_scan_failed hready hcmds hroom hacc hread

/-! ## Bits of a byte list, lowest first (R55) -/

/-- Bit `i` of a byte list, lowest bit of the first byte first (R55). -/
def bitAt (bs : List Byte) (i : Nat) : Bool := (byteOf bs (i / 8)).getLsbD (i % 8)

theorem bitsOf_lsb (d : Byte) : bitsOf .lsb d = (List.range 8).map d.getLsbD := rfl

/-- The bits of a byte list as they travel, lowest first. -/
theorem flatMap_bitsOf_lsb (bs : List Byte) :
    bs.flatMap (bitsOf .lsb) = (List.range (8 * bs.length)).map (bitAt bs) := by
  induction bs with
  | nil => rfl
  | cons b bs ih =>
    have hhead : ∀ i ∈ List.range 8, b.getLsbD i = bitAt (b :: bs) i := fun i hi => by
      have hi : i < 8 := List.mem_range.1 hi
      simp [bitAt, byteOf, Nat.div_eq_of_lt hi, Nat.mod_eq_of_lt hi]
    have htail : ∀ i ∈ List.range (8 * bs.length), bitAt bs i = bitAt (b :: bs) (8 + i) := fun i _ => by
      simp [bitAt, byteOf, Nat.add_div_left]
    rw [List.flatMap_cons, ih, bitsOf_lsb, List.length_cons, Nat.mul_succ, Nat.add_comm, List.range_add,
      List.map_append, List.map_map, List.map_congr_left hhead, List.map_congr_left htail]
    rfl

/-- Bits within the first bytes are those of the list (R55). -/
theorem bitAt_take {bs : List Byte} {m i : Nat} (h : i < 8 * m) : bitAt (bs.take m) i = bitAt bs i := by
  have hbyte : i / 8 < m := Nat.div_lt_of_lt_mul h
  simp [bitAt, byteOf, List.getElem?_take_of_lt hbyte]

theorem bitAt_append_left {xs ys : List Byte} {i : Nat} (h : i < 8 * xs.length) : bitAt (xs ++ ys) i = bitAt xs i := by
  have hbyte : i / 8 < xs.length := Nat.div_lt_of_lt_mul h
  simp [bitAt, byteOf, List.getElem?_append_left hbyte]

/-- Bit `j` of byte `m`. -/
theorem bitAt_byte (bs : List Byte) (m : Nat) {j : Nat} (h : j < 8) :
    bitAt bs (8 * m + j) = (byteOf bs m).getLsbD j := by
  rw [bitAt, show (8 * m + j) / 8 = m by omega, show (8 * m + j) % 8 = j by omega]

/-- The low bits of a byte are its bits. -/
theorem lowBits_getLsbD {r i : Nat} (x : Byte) (hi : i < r) (hr : r < 8) : (lowBits r x).getLsbD i = x.getLsbD i := by
  have hmask : ∀ r < 8, ∀ i < r, ((1#8 <<< r) - 1#8).getLsbD i = true := by decide
  rw [lowBits, BitVec.getLsbD_and, hmask r hr i hi, Bool.and_true]

/-! ## Clocks that change TMS and data-out on the falling edge (R221, R222) -/

/-- The channel `d` is `c` after the pulses `ps`, which change TMS on falling edges, and with the response bytes `rs`
gathered: the wire, the response, TMS at its last level, the target one successor a pulse. -/
structure Chan.Clocks (c : Chan) (ps : List Pulse) (rs : List Byte) (d : Chan) : Prop where
  same : c.SameStreams d
  wire : d.wire = c.wire ++ ps.map .pulse
  gathered : d.eng.gathered = c.eng.gathered ++ rs
  level : d.eng.tmsLevel = ((ps.map Pulse.tms).getLast?).getD c.eng.tmsLevel
  target : c.eng.drivesTap = true → d.target = c.target.replay (ps.map Pulse.tms)

theorem Chan.Clocks.refl (c : Chan) : c.Clocks [] [] c where
  same := .refl c
  wire := (List.append_nil _).symm
  gathered := (List.append_nil _).symm
  level := rfl
  target _ := rfl

theorem Chan.Clocks.trans {c d e : Chan} {ps qs : List Pulse} {rs us : List Byte} (h : c.Clocks ps rs d)
    (k : d.Clocks qs us e) : c.Clocks (ps ++ qs) (rs ++ us) e where
  same := h.same.trans k.same
  wire := by rw [k.wire, h.wire, List.map_append, List.append_assoc]
  gathered := by rw [k.gathered, h.gathered, List.append_assoc]
  level := by
    rw [k.level, h.level, List.map_append, List.getLast?_append]
    cases (qs.map Pulse.tms).getLast? <;> rfl
  target hd := by
    rw [k.target (h.same.drivesTap.trans hd), h.target hd, List.map_append, Tap.replay_append]

/-- What is still in the stream plays no part. -/
theorem Chan.Clocks.withTx {c d : Chan} {ps : List Pulse} {rs : List Byte} (h : c.Clocks ps rs d) (tx : List Byte) :
    Chan.Clocks { c with tx := tx } ps rs { d with tx := tx } where
  same := ⟨rfl, h.same.2⟩
  wire := h.wire
  gathered := h.gathered
  level := h.level
  target := h.target

/-- The response bytes a command gathers after its pulses. -/
theorem Chan.Clocks.gather {c d : Chan} {ps : List Pulse} (h : c.Clocks ps [] d) (rs : List Byte) :
    c.Clocks ps rs (d.gather rs) where
  same := h.same.trans (Chan.gather_same rs d)
  wire := h.wire
  gathered := by rw [Chan.gather_eng, h.gathered, List.append_nil]
  level := h.level
  target := h.target

theorem Chan.Clocks.gatherBits {c d : Chan} {ps : List Pulse} (h : c.Clocks ps [] d) (ord : BitOrder)
    (bits : List Bool) :
    ∃ stale, c.Clocks ps [capture ord stale bits] (d.gatherBits ord bits) := by
  have hfresh : c.Clocks ps [] { d with fresh := d.fresh + 1 } := ⟨h.same, h.wire, h.gathered, h.level, h.target⟩
  exact ⟨_, hfresh.gather _⟩

/-- What a pulse of a reading run carries: its levels of data-out and TMS, and its sample. -/
def Pulse.carried (p : Pulse) : Bool × Bool × Option Bool := (p.dout, p.tms, p.din)

/-- The TMS levels of pulses that carry these levels. -/
theorem map_tms_of_levels {ps : List Pulse} {ls : List (Bool × Bool)}
    (h : ps.map (fun p => (p.dout, p.tms)) = ls) : ps.map Pulse.tms = ls.map Prod.snd := by
  rw [← h, List.map_map]
  rfl

/-- The TMS levels of pulses that carry this. -/
theorem map_tms_of_carried {ps : List Pulse} {l : List (Bool × Bool × Option Bool)} (h : ps.map Pulse.carried = l) :
    ps.map Pulse.tms = l.map fun x => x.2.1 := by
  rw [← h, List.map_map]
  rfl

/-- A run of pulses that write on the falling edge. -/
theorem Chan.pulses_clocks (r : Option Edge) (ls : List (Bool × Bool)) (c : Chan) :
    ∃ ps, c.Clocks ps [] (c.pulses (some .falling) r ls).2 ∧ ps.map (fun p => (p.dout, p.tms)) = ls
      ∧ (∀ p ∈ ps, p.din.isSome = r.isSome) ∧ (c.pulses (some .falling) r ls).1 = samplesOf ps := by
  obtain ⟨ps, ⟨hwire, hlevels, hps⟩, hsamples, hsame, hgath, hlow⟩ := c.pulses_spec (some .falling) r ls
  obtain ⟨-, hlevel, -⟩ := Chan.pinsAfter_of_lowVal hlow
  have htms := map_tms_of_levels hlevels
  refine ⟨ps, ⟨hsame, hwire, hgath.trans (List.append_nil _).symm, ?_, fun hd => ?_⟩, hlevels,
    fun p hp => ?_, hsamples⟩
  · rw [hlevel, htms, List.getLast?_map]
  · rw [Chan.pulses_target hd (.inl (by decide)), htms]
  · obtain ⟨-, -, hdin, -⟩ := hps p hp
    exact hdin

/-- Pulses that each take a sample carry their levels and the samples in order. -/
theorem map_carried {ps : List Pulse} (h : ∀ p ∈ ps, p.din.isSome = true) :
    ps.map Pulse.carried
      = List.zipWith (fun l b => (l.1, l.2, some b)) (ps.map fun p => (p.dout, p.tms)) (samplesOf ps) := by
  induction ps with
  | nil => rfl
  | cons p ps ih =>
    obtain ⟨b, hb⟩ := Option.isSome_iff_exists.1 (h p List.mem_cons_self)
    have hrest := ih fun q hq => h q (List.mem_cons_of_mem _ hq)
    simp only [samplesOf] at hrest
    simp [samplesOf, hb, hrest, Pulse.carried]

/-- A reading run that writes on the falling edge, with its samples. -/
theorem Chan.pulses_reading {e : Edge} {k : Nat} (f : Nat → Bool × Bool) (c : Chan) :
    ∃ (ps : List Pulse) (g : Nat → Bool), c.Clocks ps [] (c.pulses (some .falling) (some e) ((List.range k).map f)).2
      ∧ (c.pulses (some .falling) (some e) ((List.range k).map f)).1 = (List.range k).map g
      ∧ ps.map Pulse.carried = (List.range k).map fun i => ((f i).1, (f i).2, some (g i)) := by
  obtain ⟨ps, hclocks, hlevels, hdin, hsamples⟩ := c.pulses_clocks (some e) ((List.range k).map f)
  have hlen : (samplesOf ps).length = k := by
    rw [samplesOf, List.length_filterMap_eq_countP, List.countP_eq_length.2 hdin]
    simpa using congrArg List.length hlevels
  have hrange : samplesOf ps = (List.range k).map fun i => (samplesOf ps).getD i false := by
    refine List.ext_getElem (by simp [hlen]) fun i hi _ => ?_
    simp [hi]
  refine ⟨ps, fun i => (samplesOf ps).getD i false, hclocks, hsamples.trans hrange, ?_⟩
  rw [map_carried hdin, hlevels]
  conv_lhs => rw [hrange]
  rw [List.zipWith_map_left, List.zipWith_map_right, List.zipWith_self]

/-! ## The commands of a scan on the wire (R159) -/

/-- Captured bits stand where an LSB-first read puts them (R96). -/
theorem capture_lsb_getLsbD (stale : Byte) (g : Nat → Bool) {k i : Nat} (hk : k ≤ 8) (hi : i < k) :
    (capture .lsb stale ((List.range k).map g)).getLsbD (8 - k + i) = g i := by
  have hlen : ((List.range k).map g).length = k := by simp
  obtain ⟨-, hhold⟩ := capture_bitsHold .lsb stale ((List.range k).map g) (by omega)
  rw [hlen] at hhold
  have hbit := hhold i hi
  simpa [bitPos, hi] using hbit

/-- Eight captured bits are the byte. -/
theorem bitsOf_capture_lsb (stale : Byte) (g : Nat → Bool) :
    bitsOf .lsb (capture .lsb stale ((List.range 8).map g)) = (List.range 8).map g := by
  rw [bitsOf_lsb]
  refine List.map_congr_left fun i hi => ?_
  simpa using capture_lsb_getLsbD stale g (Nat.le_refl 8) (List.mem_range.1 hi)

/-- Pulses that all carry the level TMS had leave it there. -/
theorem Chan.Clocks.level_held {c d : Chan} {ps : List Pulse} {rs : List Byte} (h : c.Clocks ps rs d) {level : Bool}
    (hc : c.eng.tmsLevel = level) {k : Nat} {f : Nat → Bool} {g : Nat → Option Bool}
    (hps : ps.map Pulse.carried = (List.range k).map fun i => (f i, level, g i)) : d.eng.tmsLevel = level := by
  have htms : ps.map Pulse.tms = List.replicate k level := by
    rw [map_tms_of_carried hps, List.map_map]
    simp [Function.comp_def, List.map_const']
  rw [h.level, htms, hc]
  cases k with
  | zero => rfl
  | succ k => rw [List.getLast?_replicate]; rfl

/-- Data bytes out and in, LSB first: every bit at its clock with TMS held (R241). -/
theorem Chan.shiftBytes_clocks (ds : List Byte) (c : Chan) :
    ∃ ps, c.Clocks ps [] (c.shiftBytes .lsb (some .falling) (some .rising) ds).2
      ∧ ps.map Pulse.carried = List.zipWith (fun o i => (o, c.eng.tmsLevel, some i)) (ds.flatMap (bitsOf .lsb))
          ((c.shiftBytes .lsb (some .falling) (some .rising) ds).1.flatMap (bitsOf .lsb)) := by
  induction ds generalizing c with
  | nil => exact ⟨[], .refl c, rfl⟩
  | cons d ds ih =>
    have hbits : (bitsOf .lsb d).map (fun b => (b, c.eng.tmsLevel))
        = (List.range 8).map fun i => (d.getLsbD i, c.eng.tmsLevel) := by
      rw [bitsOf_lsb, List.map_map]
      rfl
    obtain ⟨ps, g, hclocks, hsamples, hcarried⟩ := c.pulses_reading (e := .rising) (k := 8) fun i =>
      (d.getLsbD i, c.eng.tmsLevel)
    rw [← hbits] at hclocks hsamples
    obtain ⟨qs, hrest, hqs⟩ := ih (c.dataPulses (some .falling) (some .rising) (bitsOf .lsb d)).2
    rw [(c.dataPulses_held (some .falling) (some .rising) (bitsOf .lsb d)).level] at hqs
    have hbyte : bitsOf .lsb (capture .lsb 0 (c.dataPulses (some .falling) (some .rising) (bitsOf .lsb d)).1)
        = (List.range 8).map g := by
      rw [Chan.dataPulses, hsamples, bitsOf_capture_lsb]
    refine ⟨ps ++ qs, hclocks.trans hrest, ?_⟩
    rw [Chan.shiftBytes, List.map_append, hcarried, hqs, List.flatMap_cons, List.flatMap_cons, hbyte, bitsOf_lsb,
      List.zipWith_append (by simp), List.zipWith_map_left, List.zipWith_map_right, List.zipWith_self]

/-- `IO.BYTES.WN_RP.LSB`: bit `i` of the data out and bit `i` of the response in at clock `i` (R241). -/
theorem engCmd_ioBytesWnRpLsb_clocks (ds : List Byte) (c : Chan) :
    ∃ ps rs, c.Clocks ps rs (engCmd (.ioBytesWnRpLsb ds) c) ∧ rs.length = ds.length
      ∧ ps.map Pulse.carried
        = (List.range (8 * ds.length)).map fun i => (bitAt ds i, c.eng.tmsLevel, some (bitAt rs i)) := by
  obtain ⟨ps, hclocks, hcarried⟩ := c.shiftBytes_clocks ds
  have hlen := c.shiftBytes_length .lsb (some .falling) (some .rising) ds
  refine ⟨ps, _, hclocks.gather _, hlen, ?_⟩
  rw [hcarried, flatMap_bitsOf_lsb, flatMap_bitsOf_lsb, hlen, List.zipWith_map_left, List.zipWith_map_right,
    List.zipWith_self]

/-- `IO.BITS.WN_RP.LSB`: bit `i` of the data byte out at clock `i`, its sample left-aligned in the response (R245). -/
theorem engCmd_ioBitsWnRpLsb_clocks {k : Nat} (h1 : 1 ≤ k) (h8 : k ≤ 8) (d : Byte) (c : Chan) :
    ∃ ps b, c.Clocks ps [b] (engCmd (.ioBitsWnRpLsb k d) c)
      ∧ ps.map Pulse.carried
        = (List.range k).map fun i => (d.getLsbD i, c.eng.tmsLevel, some (b.getLsbD (8 - k + i))) := by
  have hbits : ((bitsOf .lsb d).take k).map (fun b => (b, c.eng.tmsLevel))
      = (List.range k).map fun i => (d.getLsbD i, c.eng.tmsLevel) := by
    rw [bitsOf_lsb, ← List.map_take, List.take_range, Nat.min_eq_left h8, List.map_map]
    rfl
  obtain ⟨ps, g, hclocks, hsamples, hcarried⟩ := c.pulses_reading (e := .rising) (k := k) fun i =>
    (d.getLsbD i, c.eng.tmsLevel)
  rw [← hbits] at hclocks hsamples
  obtain ⟨stale, hgather⟩ := hclocks.gatherBits .lsb ((List.range k).map g)
  refine ⟨ps, capture .lsb stale ((List.range k).map g), ?_, ?_⟩
  · rw [← hsamples] at hgather ⊢
    simp only [engCmd, cmdIoBitsWnRpLsb, Chan.ioBits, c.bitCount_ok ⟨h1, h8⟩]
    exact hgather
  · rw [hcarried]
    refine List.map_congr_left fun i hi => ?_
    rw [capture_lsb_getLsbD stale g h8 (List.mem_range.1 hi)]

/-- `TMSR.WN_RP` of one clock: bit 7 of its byte out, bit 0 on TMS, the sample in bit 7 of the response (R250). -/
theorem engCmd_tmsrWnRp_one_clocks (d : Byte) (c : Chan) :
    ∃ ps b, c.Clocks ps [b] (engCmd (.tmsrWnRp 1 d) c)
      ∧ ps.map Pulse.carried = [(d.getLsbD 7, d.getLsbD 0, some (b.getLsbD 7))] := by
  obtain ⟨ps, g, hclocks, hsamples, hcarried⟩ := c.pulses_reading (e := .rising) (k := 1) fun i =>
    (d.getLsbD 7, d.getLsbD i)
  rw [← tmsPulses_eq (by decide)] at hclocks hsamples
  obtain ⟨stale, hgather⟩ := hclocks.gatherBits .lsb ((List.range 1).map g)
  have hbit : (capture .lsb stale ((List.range 1).map g)).getLsbD 7 = g 0 :=
    capture_lsb_getLsbD stale g (by decide) (Nat.zero_lt_one)
  refine ⟨ps, capture .lsb stale ((List.range 1).map g), ?_, by rw [hcarried, hbit]; rfl⟩
  rw [← hsamples] at hgather ⊢
  exact hgather

/-- `TMS.WN`: the control bits on TMS, no response (R248). -/
theorem engCmd_tmsWn_clocks {m : Nat} (h1 : 1 ≤ m) (h7 : m ≤ 7) (d : Byte) (c : Chan) :
    ∃ ps, c.Clocks ps [] (engCmd (.tmsWn m d) c) ∧ ps.map Pulse.tms = (List.range m).map d.getLsbD := by
  obtain ⟨ps, hclocks, hlevels, -, -⟩ := c.pulses_clocks none (tmsPulses m d)
  refine ⟨ps, ?_, ?_⟩
  · simp only [engCmd, cmdTmsWn, Chan.tmsOut, c.tmsCount_ok ⟨h1, h7⟩]
    exact hclocks
  · rw [map_tms_of_levels hlevels, tmsPulses_eq h7, List.map_map]
    rfl

/-! ## A scan's stream at work (R70, R152, R159) -/

/-- At the front of the stream stand commands that the engine executes with these pulses and responses: `rest` is
left. -/
structure Chan.Executes (c : Chan) (rest : List Byte) (ps : List Pulse) (rs : List Byte) (d : Chan) : Prop where
  settles : c.settle = d.settle
  clocks : Chan.Clocks { c with tx := rest } ps rs d

theorem Chan.Executes.tx {c d : Chan} {rest rs : List Byte} {ps : List Pulse} (h : c.Executes rest ps rs d) :
    d.tx = rest := h.clocks.same.1

theorem Chan.Executes.refl (c : Chan) : c.Executes c.tx [] [] c := ⟨rfl, .refl c⟩

theorem Chan.Executes.trans {c d e : Chan} {mid rest rs us : List Byte} {ps qs : List Pulse}
    (h : c.Executes mid ps rs d) (k : d.Executes rest qs us e) : c.Executes rest (ps ++ qs) (rs ++ us) e :=
  ⟨h.settles.trans k.settles, (h.clocks.withTx rest).trans k.clocks⟩

/-- A command that is read back is executed. -/
theorem Chan.executes_cmd {c : Chan} {i : Instr} {rest rs : List Byte} {ps : List Pulse} (hi : i.CmdReadsBack)
    (htx : c.tx = encodeCmd i ++ rest) (h : Chan.Clocks { c with tx := rest } ps rs (engCmd i { c with tx := rest })) :
    c.Executes rest ps rs (engCmd i { c with tx := rest }) :=
  ⟨Chan.settle_cmd (htx ▸ hi rest), h⟩

/-- TMS.WN commands at the front of the stream clock their control bits one after the other. -/
theorem Chan.executes_tmsWns {l : List (Nat × Byte)} (hl : ∀ p ∈ l, 1 ≤ p.1 ∧ p.1 ≤ 7) {c : Chan} {rest : List Byte}
    (htx : c.tx = l.flatMap (fun p => encodeCmd (.tmsWn p.1 p.2)) ++ rest) :
    ∃ ps d, c.Executes rest ps [] d ∧ ps.map Pulse.tms = l.flatMap fun p => (List.range p.1).map p.2.getLsbD := by
  induction l generalizing c with
  | nil =>
    obtain rfl : c.tx = rest := htx
    exact ⟨[], c, .refl c, rfl⟩
  | cons p l ih =>
    obtain ⟨h1, h7⟩ := hl p List.mem_cons_self
    have hok : tmsCountOk p.1 = true := by simp [tmsCountOk, h1, h7]
    rw [List.flatMap_cons, List.append_assoc] at htx
    obtain ⟨ps, hclocks, hps⟩ := engCmd_tmsWn_clocks h1 h7 p.2 { c with tx := _ }
    have hfirst := Chan.executes_cmd (TmsOp.instr_readsBack .wn p.2 hok) htx hclocks
    obtain ⟨qs, d, hrest, hqs⟩ := ih (fun q hq => hl q (List.mem_cons_of_mem _ hq)) hfirst.tx
    refine ⟨ps ++ qs, d, hfirst.trans hrest, ?_⟩
    rw [List.map_append, hps, hqs, List.flatMap_cons]

/-- A `TMS_SEQ` at the front of the stream clocks its bits (R138). -/
theorem Chan.executes_tmsSeq {c : Chan} {bits : List Bool} {rest : List Byte} (htx : c.tx = tmsSeq bits ++ rest) :
    ∃ ps d, c.Executes rest ps [] d ∧ ps.map Pulse.tms = bits := by
  have hcounts : ∀ p ∈ tmsCmds bits.length bits, 1 ≤ p.1 ∧ p.1 ≤ 7 := fun p hp => by
    obtain ⟨h1, h7, -⟩ := tmsCmds_counts _ _ p hp
    exact ⟨h1, h7⟩
  rw [tmsSeq, tmsChunks_eq] at htx
  obtain ⟨ps, d, hexec, hps⟩ := Chan.executes_tmsWns hcounts htx
  exact ⟨ps, d, hexec, hps.trans (tmsCmds_bits (Nat.le_refl _))⟩

/-- Step 2 of a scan, left out when there is no whole byte (R152). -/
theorem Chan.executes_scanBytes {c : Chan} {ds rest : List Byte} (hle : ds.length ≤ 65536)
    (htx : c.tx = cmdUnless ds.length (.ioBytesWnRpLsb ds) ++ rest) :
    ∃ ps rs d, c.Executes rest ps rs d ∧ rs.length = ds.length
      ∧ ps.map Pulse.carried
        = (List.range (8 * ds.length)).map fun i => (bitAt ds i, c.eng.tmsLevel, some (bitAt rs i)) := by
  unfold cmdUnless at htx
  split at htx
  · rename_i hnone
    obtain rfl : c.tx = rest := htx
    exact ⟨[], [], c, .refl c, hnone.symm, by rw [hnone]; rfl⟩
  · have hok : byteCountOk ds.length = true := by
      simp only [byteCountOk, Bool.and_eq_true, decide_eq_true_eq]
      omega
    obtain ⟨ps, rs, hclocks, hlen, hps⟩ := engCmd_ioBytesWnRpLsb_clocks ds { c with tx := rest }
    exact ⟨ps, rs, _, Chan.executes_cmd (WriteOp.bytesInstr_readsBack .ioWnRpLsb hok) htx hclocks, hlen, hps⟩

/-- Step 3 of a scan, left out when there is no partial group (R152). -/
theorem Chan.executes_scanBits {c : Chan} {r : Nat} {x : Byte} {rest : List Byte} (hr : r < 8)
    (htx : c.tx = cmdUnless r (.ioBitsWnRpLsb r x) ++ rest) :
    ∃ ps rs d, c.Executes rest ps rs d ∧ rs.length = partCount r
      ∧ ps.map Pulse.carried
        = (List.range r).map fun i => (x.getLsbD i, c.eng.tmsLevel, some ((byteOf rs 0).getLsbD (8 - r + i))) := by
  unfold cmdUnless at htx
  split at htx
  · rename_i hnone
    obtain rfl : c.tx = rest := htx
    exact ⟨[], [], c, .refl c, by rw [hnone]; rfl, by rw [hnone]; rfl⟩
  · rename_i hsome
    have hok : bitCountOk r = true := by
      simp only [bitCountOk, Bool.and_eq_true, decide_eq_true_eq]
      omega
    obtain ⟨ps, b, hclocks, hps⟩ := engCmd_ioBitsWnRpLsb_clocks (by omega : 1 ≤ r) hr.le x { c with tx := rest }
    exact ⟨ps, [b], _, Chan.executes_cmd (WriteOp.bitsInstr_readsBack .ioWnRpLsb x hok) htx hclocks,
      (if_neg hsome).symm, hps⟩

/-- Step 4 of a scan: the last bit with TMS high (R152). -/
theorem Chan.executes_scanLast {c : Chan} {last : Bool} {rest : List Byte}
    (htx : c.tx = encodeCmd (.tmsrWnRp 1 (fusedByte last)) ++ rest) :
    ∃ ps b d, c.Executes rest ps [b] d ∧ ps.map Pulse.carried = [(last, true, some (b.getLsbD 7))] := by
  obtain ⟨ps, b, hclocks, hps⟩ := engCmd_tmsrWnRp_one_clocks (fusedByte last) { c with tx := rest }
  have hout : (fusedByte last).getLsbD 7 = last := by cases last <;> decide
  have htms : (fusedByte last).getLsbD 0 = true := by cases last <;> decide
  rw [hout, htms] at hps
  exact ⟨ps, b, _, Chan.executes_cmd (TmsOp.instr_readsBack .wnRp _ rfl) htx hclocks, hps⟩

section DecodedParts

variable {n : Nat} {rb rp : List Byte} {b : Byte} (hb : rb.length = jtagBytes n)
  (hp : rp.length = partCount (jtagBits n))
include hb hp

/-- The responses of a scan's three data commands are what its read asks for (R152). -/
theorem scanResponse_length : (rb ++ rp ++ [b]).length = scanReadLen n := by
  simp [scanReadLen, hb, hp, Nat.add_assoc]

theorem bitAt_scanDecode_whole {i : Nat} (hi : i < 8 * jtagBytes n) :
    bitAt (scanDecode n (rb ++ rp ++ [b])) i = bitAt rb i := by
  have hbyte : i / 8 < jtagBytes n := Nat.div_lt_of_lt_mul hi
  rw [bitAt, byteOf_scanDecode_whole (scanResponse_length hb hp) hbyte, ← bitAt, List.append_assoc,
    bitAt_append_left (by omega)]

theorem bitAt_scanDecode_partial {j : Nat} (hj : j < jtagBits n) :
    bitAt (scanDecode n (rb ++ rp ++ [b])) (8 * jtagBytes n + j) = (byteOf rp 0).getLsbD (8 - jtagBits n + j) := by
  have hr := jtagBits_lt n
  have hone : 0 < rp.length := by rw [hp, partCount, if_neg (by omega)]; exact Nat.one_pos
  have hbyte : byteOf (rb ++ rp ++ [b]) (jtagBytes n) = byteOf rp 0 := by
    rw [List.append_assoc, byteOf, List.getD_append_right _ _ _ _ hb.le, hb, Nat.sub_self,
      List.getD_append _ _ _ _ hone, byteOf]
  rw [bitAt_byte _ _ (by omega), scanDecode_partial_bit (scanResponse_length hb hp) hj, hbyte]

theorem bitAt_scanDecode_last :
    bitAt (scanDecode n (rb ++ rp ++ [b])) (8 * jtagBytes n + jtagBits n) = b.getLsbD 7 := by
  have hbyte : byteOf (rb ++ rp ++ [b]) ((rb ++ rp ++ [b]).length - 1) = b := by simp [byteOf]
  rw [bitAt_byte _ _ (jtagBits_lt n), scanDecode_last_bit (scanResponse_length hb hp), hbyte]

end DecodedParts

/-- What data clock `i` of a scan carries (R159): bit `i` of the data, TMS low but at the last bit, and bit `i` of what
the scan returns. -/
def scanClock (n : Nat) (out ins : List Byte) (i : Nat) : Bool × Bool × Option Bool :=
  (bitAt out i, decide (i = n - 1), some (bitAt ins i))

/-- The clocks of the whole bytes, of the partial group and of the last bit are the clocks of the scan. -/
theorem map_scanClock {n : Nat} (h : 1 ≤ n) (out ins : List Byte) :
    (List.range n).map (scanClock n out ins)
      = (List.range (8 * jtagBytes n)).map (fun i => (bitAt out i, false, some (bitAt ins i)))
        ++ (List.range (jtagBits n)).map (fun j =>
            (bitAt out (8 * jtagBytes n + j), false, some (bitAt ins (8 * jtagBytes n + j))))
        ++ [(bitAt out (8 * jtagBytes n + jtagBits n), true, some (bitAt ins (8 * jtagBytes n + jtagBits n)))] := by
  have hsplit := jtag_split h
  have hwhole : ∀ i ∈ List.range (8 * jtagBytes n),
      scanClock n out ins i = (bitAt out i, false, some (bitAt ins i)) := fun i hi => by
    have hi := List.mem_range.1 hi
    rw [scanClock, decide_eq_false (by omega)]
  have hpart : ∀ j ∈ List.range (jtagBits n), (scanClock n out ins ∘ (8 * jtagBytes n + ·)) j
      = (bitAt out (8 * jtagBytes n + j), false, some (bitAt ins (8 * jtagBytes n + j))) := fun j hj => by
    have hj := List.mem_range.1 hj
    rw [Function.comp_apply, scanClock, decide_eq_false (by omega)]
  have hlast : scanClock n out ins (8 * jtagBytes n + jtagBits n)
      = (bitAt out (8 * jtagBytes n + jtagBits n), true, some (bitAt ins (8 * jtagBytes n + jtagBits n))) := by
    rw [scanClock, decide_eq_true (by omega)]
  have hrange : List.range n
      = List.range (8 * jtagBytes n) ++ (List.range (jtagBits n)).map (8 * jtagBytes n + ·)
        ++ [8 * jtagBytes n + jtagBits n] := by
    conv_lhs => rw [hsplit, List.range_succ, List.range_add]
  rw [hrange, List.map_append, List.map_append, List.map_map, List.map_congr_left hwhole, List.map_congr_left hpart,
    List.map_singleton, hlast]

/-- The TMS levels of a scan's data clocks: low, and high at the last bit. -/
theorem map_tms_scanClock {n : Nat} (h : 1 ≤ n) {out ins : List Byte} {ps : List Pulse}
    (hps : ps.map Pulse.carried = (List.range n).map (scanClock n out ins)) :
    ps.map Pulse.tms = List.replicate (n - 1) false ++ [true] := by
  obtain ⟨m, rfl⟩ : ∃ m, n = m + 1 := ⟨n - 1, by omega⟩
  have hlow : ∀ i ∈ List.range m, (scanClock (m + 1) out ins i).2.1 = false :=
    fun i hi => decide_eq_false (List.mem_range.1 hi).ne
  rw [map_tms_of_carried hps, List.map_map, Function.comp_def, List.range_succ, List.map_append,
    List.map_congr_left hlow, List.map_const', List.length_range]
  simp [scanClock]

/-- The data commands of a scan (R152 steps 2 to 4). -/
def scanDataCmds (n : Nat) (out : List Byte) : List Byte :=
  cmdUnless (jtagBytes n) (.ioBytesWnRpLsb (out.take (jtagBytes n)))
    ++ (cmdUnless (jtagBits n) (.ioBitsWnRpLsb (jtagBits n) (lowBits (jtagBits n) (byteOf out (jtagBytes n))))
    ++ encodeCmd (.tmsrWnRp 1 (fusedByte (bitAt out (8 * jtagBytes n + jtagBits n)))))

theorem scanCmds_eq (cur shift exit1 fin : Tap) (n : Nat) (out : List Byte) :
    scanCmds cur shift exit1 fin n out = tmsSeq (pathOf cur shift)
      ++ (scanDataCmds n out ++ (tmsSeq (pathOf exit1 fin) ++ encodeCmd .sendImm)) := by
  rw [scanDataCmds, bitAt_byte _ _ (jtagBits_lt n)]
  simp only [scanCmds, List.append_assoc]
  rfl

/-- With TMS low before, the data commands of a scan clock every bit out and in, and their responses decode to the bits
that came in (R155, R159). -/
theorem Chan.executes_scanDataCmds {c : Chan} {n : Nat} {out rest : List Byte} (hn : 1 ≤ n)
    (hlen : out.length = ceil8 n) (hmax : jtagBytes n ≤ 65536) (hlow : c.eng.tmsLevel = false)
    (htx : c.tx = scanDataCmds n out ++ rest) :
    ∃ ps rs d, c.Executes rest ps rs d ∧ rs.length = scanReadLen n
      ∧ ps.map Pulse.carried = (List.range n).map (scanClock n out (scanDecode n rs)) := by
  have htake := byteCount_take hn hlen
  have hr := jtagBits_lt n
  simp only [scanDataCmds, List.append_assoc] at htx
  obtain ⟨pb, rb, d, hbytes, hrb, hpb⟩ := Chan.executes_scanBytes (c := c) (ds := out.take (jtagBytes n))
    (by omega) (by rw [htake]; exact htx)
  rw [htake] at hrb hpb
  rw [hlow] at hpb
  obtain ⟨pp, rp, e, hbits, hrp, hpp⟩ := Chan.executes_scanBits hr hbytes.tx
  obtain ⟨pl, b, f, hlast, hpl⟩ := Chan.executes_scanLast hbits.tx
  have hdlow : d.eng.tmsLevel = false := hbytes.clocks.level_held hlow hpb
  refine ⟨pb ++ pp ++ pl, rb ++ rp ++ [b], f, (hbytes.trans hbits).trans hlast, scanResponse_length hrb hrp, ?_⟩
  rw [List.map_append, List.map_append, hpb, hpp, hpl, hdlow, map_scanClock hn]
  congr 1
  · congr 1
    · refine List.map_congr_left fun i hi => ?_
      have hi := List.mem_range.1 hi
      rw [bitAt_take hi, bitAt_scanDecode_whole hrb hrp hi]
    · refine List.map_congr_left fun j hj => ?_
      have hj := List.mem_range.1 hj
      rw [lowBits_getLsbD _ hj hr, bitAt_byte _ _ (hj.trans hr), bitAt_scanDecode_partial hrb hrp hj]
  · rw [bitAt_scanDecode_last hrb hrp]

/-! ## A scan's path on a quiet channel (R38, R159) -/

/-- A path to a shift state ends with TMS low, or there is no path to go (R134). -/
theorem pathOf_shift_level {src : Tap} (h : src ∈ Tap.pathSources) (k : ScanReg) {level : Bool}
    (hlevel : src = k.shift → level = false) : ((pathOf src k.shift).getLast?).getD level = false := by
  have htable : ∀ s ∈ Tap.pathSources,
      (s = k.shift ∧ pathOf s k.shift = []) ∨ (pathOf s k.shift).getLast? = some false := by
    cases k <;> decide
  obtain ⟨hhere, hnil⟩ | hlast := htable src h
  · rw [hnil]
    exact hlevel hhere
  · rw [hlast]
    rfl

/-- The bits of a pair of the path table lead from source to target (R134). -/
theorem replay_pathOf {src dst : Tap} (hs : src ∈ Tap.pathSources) (hd : dst ∈ Tap.pathTargets) :
    src.replay (pathOf src dst) = dst := by
  obtain ⟨bs, hbits, -, hreplay, -⟩ := Tap.pathBits_shortest hs hd
  rw [pathOf_eq hbits, hreplay]

/-- A shift state is left at the last bit only (R131). -/
theorem ScanReg.replay_data (k : ScanReg) (m : Nat) : k.shift.replay (List.replicate m false ++ [true]) = k.exit1 := by
  have hstays : k.shift.next false = k.shift := by cases k <;> rfl
  rw [Tap.replay_append, Tap.replay_replicate_of_next hstays]
  cases k <;> rfl

/-- A SEND_IMM that is all of the stream: the engine has then finished. -/
theorem Chan.settle_sendImm {c : Chan} (htx : c.tx = encodeCmd .sendImm) :
    c.settle = cmdSendImm { c with tx := [] } := by
  have hdecode : decodeCmd c.tx = .cmd .sendImm [] := htx ▸ NoargOp.instr_readsBack .sendImm []
  exact (Chan.settle_cmd hdecode).trans (Chan.settle_nil rfl)

/-- SEND_IMM loses and reorders no response byte (R71, R273). -/
theorem cmdSendImm_incoming (c : Chan) : (cmdSendImm c).incoming = c.incoming := by
  simp [cmdSendImm, Chan.incoming]

/-- What a scan has done on the wire when channel `e` is reached (R159): after the events `w` the pulses to the shift
state, those of the data, whose bits the response `rs` decodes to, and those to the end state, where the target is. -/
structure ScanOnWire (w : List WireEvt) (k : ScanReg) (cur fin : Tap) (n : Nat) (out : List Byte)
    (pre data post : List Pulse) (rs : List Byte) (e : Chan) : Prop where
  wire : e.wire = w ++ (pre ++ data ++ post).map .pulse
  target : e.target = fin
  pre_tms : pre.map Pulse.tms = pathOf cur k.shift
  carried : data.map Pulse.carried = (List.range n).map (scanClock n out (scanDecode n rs))
  post_tms : post.map Pulse.tms = pathOf k.exit1 fin
  response : rs.length = scanReadLen n

/-- With nothing else to do, the engine works through a scan's commands, and the response is all that is incoming (R70,
R152). -/
theorem Chan.settle_scanCmds {c : Chan} {k : ScanReg} {cur fin : Tap} {n : Nat} {out : List Byte} (hn : 1 ≤ n)
    (hlen : out.length = ceil8 n) (hmax : jtagBytes n ≤ 65536) (hsrc : cur ∈ Tap.pathSources)
    (hfin : fin ∈ Tap.pathTargets) (hcur : c.target = cur) (hd : c.eng.drivesTap = true)
    (hlow : cur = k.shift → c.eng.tmsLevel = false) (hturns : c.turns = []) (hincoming : c.incoming = [])
    (htx : c.tx = scanCmds cur k.shift k.exit1 fin n out) :
    ∃ pre data post rs, ScanOnWire c.wire k cur fin n out pre data post rs c.settle
      ∧ c.settle.tx = [] ∧ c.settle.turns = [] ∧ c.settle.incoming = rs := by
  rw [scanCmds_eq] at htx
  obtain ⟨pre, d, hpre, hpretms⟩ := Chan.executes_tmsSeq htx
  have hdlow : d.eng.tmsLevel = false := by
    rw [hpre.clocks.level, hpretms]
    exact pathOf_shift_level hsrc k hlow
  obtain ⟨data, rs, e, hdata, hrs, hcarried⟩ := Chan.executes_scanDataCmds hn hlen hmax hdlow hpre.tx
  obtain ⟨post, f, hpost, hposttms⟩ := Chan.executes_tmsSeq hdata.tx
  have hall := (hpre.trans hdata).trans hpost
  rw [List.nil_append, List.append_nil] at hall
  have hend : c.settle = cmdSendImm { f with tx := [] } := hall.settles.trans (Chan.settle_sendImm hpost.tx)
  obtain ⟨-, hrx, -, -, hfl, -, -, hfturns, -⟩ := hall.clocks.same
  have htarget : f.target = fin := by
    rw [hall.clocks.target hd, List.map_append, List.map_append, hpretms, hposttms, map_tms_scanClock hn hcarried,
      Tap.replay_append, Tap.replay_append]
    show ((c.target.replay _).replay _).replay _ = fin
    rw [hcur, replay_pathOf hsrc k.shift_target, k.replay_data, replay_pathOf k.exit1_source hfin]
  have hresponse : (cmdSendImm { f with tx := [] }).incoming = c.incoming ++ rs := by
    rw [cmdSendImm_incoming]
    simp only [Chan.incoming, hrx, hfl, hall.clocks.gathered, List.append_assoc]
  rw [hincoming, List.nil_append] at hresponse
  rw [hend]
  exact ⟨pre, data, post, rs, ⟨hall.clocks.wire, htarget, hpretms, hcarried, hposttms, hrs⟩, rfl,
    hfturns.trans hturns, hresponse⟩

/-- A read of all that is incoming once the engine has finished, past the agent's last turn: the channel is quiet, and
the wire and the target are as the engine left them (R62, R113). -/
theorem Chan.readExact_everything {c : Chan} {n : Nat} (hn : 0 < n) (hlen : c.settle.incoming.length = n)
    (htx : c.settle.tx = []) (hturns : c.settle.turns = []) :
    ∃ d : Chan, c.readExact n = (.ok c.settle.incoming, d) ∧ d.Quiet ∧ d.wire = c.settle.wire
      ∧ d.target = c.settle.target := by
  have hread := Chan.readExact_last n c hn hlen.ge hturns
  have htake : c.settle.incoming.take n = c.settle.incoming := List.take_of_length_le hlen.le
  have hsplit := Chan.take_rx_append_incoming n c.settle.deliverAll
  have hdeliver : c.settle.deliverAll.incoming = c.settle.incoming := Chan.deliver_incoming _ _
  rw [htake] at hread
  rw [Chan.deliverAll_rx, htake, hdeliver] at hsplit
  exact ⟨_, hread, ⟨hturns, htx, List.append_right_eq_self.1 hsplit⟩, rfl, rfl⟩

/-- A scan that passes its checks on a quiet channel, with the target driven and where the mirror says, is answered with
the decode of what its commands did on the wire, and the channel is quiet again. -/
theorem exec_scan_quiet {s : State} {k : ScanReg} {n : Nat} {out : List Byte} (h : ScanReady s k n out)
    (hwf : s.par.wf = true) (hquiet : s.chan.Quiet) (hd : s.chan.eng.drivesTap = true)
    (hcur : s.chan.target = s.tapCur) (hlow : s.tapCur = k.shift → s.chan.eng.tmsLevel = false)
    (hroom : s.room (scanCmds s.tapCur k.shift k.exit1 (k.fin s) n out).length = true) :
    ∃ pre data post rs d, ScanOnWire s.chan.wire k s.tapCur (k.fin s) n out pre data post rs d ∧ d.Quiet
      ∧ exec (k.instr n out) s = .next { s.sent (scanCmds s.tapCur k.shift k.exit1 (k.fin s) n out) with
          tapCur := k.fin s, chan := d, answer := .bytes (scanDecode n rs) } := by
  obtain ⟨hturns, htx, hincoming⟩ := hquiet
  have hacc : s.chan.accepts = true := by simp [Chan.accepts, hturns]
  have hmax : jtagBytes n ≤ 65536 := h.bytes.trans (of_decide_eq_true (Bool.and_eq_true_iff.1 hwf).1)
  generalize hcmds : scanCmds s.tapCur k.shift k.exit1 (k.fin s) n out = cmds at hroom ⊢
  have hsent : (s.sent cmds).chan = Chan.called (.write cmds) { s.chan with tx := cmds } := by
    rw [State.sent_chan, Chan.write_last hturns, htx, List.nil_append]
  obtain ⟨pre, data, post, rs, hwire, hstream, hnoturns, hrs⟩ :=
    Chan.settle_scanCmds (c := Chan.called (.write cmds) { s.chan with tx := cmds }) h.bits h.buffer hmax h.source
      (pathTargets_of_stable h.endState) hcur hd hlow hturns hincoming hcmds.symm
  obtain ⟨d, hread, hdquiet, hdwire, hdtarget⟩ := Chan.readExact_everything (Nat.succ_pos _)
    (hrs.symm ▸ hwire.response) hstream hnoturns
  rw [hrs, ← hsent] at hread
  exact ⟨pre, data, post, rs, d, { hwire with wire := hdwire.trans hwire.wire, target := hdtarget.trans hwire.target },
    hdquiet, exec_scan_answered h hcmds.symm hroom hacc hread⟩

section OnWire

variable {w : List WireEvt} {k : ScanReg} {cur fin : Tap} {n : Nat} {out rs : List Byte} {pre data post : List Pulse}
  {e : Chan} (h : ScanOnWire w k cur fin n out pre data post rs e)
include h

/-- The clock of data bit `i` on the wire. -/
theorem ScanOnWire.dataClock {i : Nat} (hi : i < n) :
    ∃ p, (pre ++ data ++ post)[(pathOf cur k.shift).length + i]? = some p
      ∧ p.carried = scanClock n out (scanDecode n rs) i := by
  have hpre : pre.length = (pathOf cur k.shift).length := by simpa using congrArg List.length h.pre_tms
  have hdata : data.length = n := by simpa using congrArg List.length h.carried
  have hplace : (data.map Pulse.carried)[i]? = some (scanClock n out (scanDecode n rs) i) := by
    rw [h.carried, List.getElem?_map, List.getElem?_range hi, Option.map_some]
  rw [List.getElem?_map, Option.map_eq_some_iff] at hplace
  obtain ⟨p, hp, hcarried⟩ := hplace
  refine ⟨p, ?_, hcarried⟩
  rw [List.append_assoc, List.getElem?_append_right (by omega), ← hpre, Nat.add_sub_cancel_left,
    List.getElem?_append_left (by omega), hp]

/-- The pulses of a scan are its paths and its bits (R152, R159). -/
theorem ScanOnWire.pulses_length :
    (pre ++ data ++ post).length = (pathOf cur k.shift).length + n + (pathOf k.exit1 fin).length := by
  have hdata := congrArg List.length h.carried
  rw [List.length_map, List.length_map, List.length_range] at hdata
  rw [List.length_append, List.length_append, ← h.pre_tms, ← h.post_tms, List.length_map, List.length_map, hdata]

end OnWire

/-- Settles O35: either scan from its checks, its stream and its read. -/
theorem scanEndToEnd : Obligations.ScanEndToEnd := by
  intro s n out hopen hproto hknown hsrc hn hlen hbytes hwf hquiet hd hcur x hx hstable hlow hroom
  obtain ⟨k, rfl⟩ : ∃ k : ScanReg, x = (k.instr n out, k.shift, k.exit1, k.fin s) := by
    simp only [List.mem_cons, List.not_mem_nil, or_false] at hx
    obtain rfl | rfl := hx
    · exact ⟨.dr, rfl⟩
    · exact ⟨.ir, rfl⟩
  have hready : ScanReady s k n out := ⟨hopen, hproto, hknown, hsrc, hn, hlen, hbytes, hstable⟩
  obtain ⟨pre, data, post, rs, d, hwire, hdquiet, hexec⟩ := exec_scan_quiet hready hwf hquiet hd hcur hlow hroom
  have hins : (scanDecode n rs).length = ceil8 n := by
    rw [scanDecode_length hwire.response, ceil8_eq_jtagBytes hn]
  refine ⟨_, pre ++ data ++ post, scanDecode n rs, hexec, rfl, hins, rfl, hwire.target, hdquiet, rfl, hknown,
    hwire.wire, hwire.pulses_length, fun i hi => ?_⟩
  obtain ⟨p, hp, hcarried⟩ := hwire.dataClock hi
  obtain ⟨hdout, hrest⟩ := Prod.mk.inj hcarried
  obtain ⟨htms, hdin⟩ := Prod.mk.inj hrest
  exact ⟨p, hp, hdout, htms, hdin⟩

end Sys2Proof.Machine

/-! PROOF. The SPI controller (spec/44_spi.md R165 to R173; 60_exceptions.md R295, R296). A chip-select change is an
append after which the shadow has the level. The shifts of a mode are those of one `WriteOp` or `ReadOp`, so that what a
transfer emits is said once for every mode, and the response of a read is what its shifts gather. -/

namespace Sys2Proof.Machine

/-! ## A chip-select change (R165) -/

theorem selectVal_eq_putBit (v : Byte) (level : Bool) : selectVal v level = putBit v selectBit level := by
  cases level
  · rfl
  · revert v; decide

/-- Only the select bit of the value byte changes. -/
theorem selectVal_getLsbD (v : Byte) (level : Bool) (i : Nat) :
    (selectVal v level).getLsbD i = if i = 3 then level else v.getLsbD i := by
  rw [selectVal_eq_putBit]
  split
  · subst i
    exact putBit_same v level selectBit (by decide)
  · rename_i hi
    exact putBit_other v level hi

/-- Of two changes the second counts. -/
theorem selectVal_selectVal (v : Byte) (l m : Bool) : selectVal (selectVal v l) m = selectVal v m := by
  refine BitVec.eq_of_getLsbD_eq fun i _ => ?_
  simp only [selectVal_getLsbD]
  split <;> rfl

theorem csVal_eq_selectVal (v : Byte) (level : Bool) : csVal v level = selectVal v level := by
  cases level
  · exact BitVec.or_zero
  · rfl

theorem selectCmds_length (s : State) (level : Bool) : (selectCmds s level).length = 3 * s.par.spiSettleRepeat := by
  simp [selectCmds, encodeCmd, Nat.mul_comm]

theorem selectCmds_ne_nil {s : State} (h : 0 < s.par.spiSettleRepeat) (level : Bool) : selectCmds s level ≠ [] :=
  List.ne_nil_of_length_pos (by rw [selectCmds_length]; omega)

/-- The shadow of the value byte with the select bit at a level (R29, R165). -/
def State.selecting (s : State) (level : Bool) : State := { s with plVal := selectVal s.plVal level }

@[simp] theorem State.selecting_qcur (s : State) (level : Bool) : (s.selecting level).qcur = s.qcur := rfl

@[simp] theorem State.selecting_par (s : State) (level : Bool) : (s.selecting level).par = s.par := rfl

/-- With room for it, `CS_SEQ` appends its pin-sets and leaves the level in the shadow. -/
theorem csSeq_ok {s : State} {level : Bool} (h : s.qcur + (selectCmds s level).length ≤ s.par.qcap) :
    csSeq level s = .ok () ((s.selecting level).append (selectCmds s level)) := by
  rw [csSeq, csVal_eq_selectVal]
  exact congrArg (Res.bind · _) (emitAll_ok _ s h)

/-- A second chip-select change, after commands that were appended to a first one. -/
theorem csSeq_again {s : State} {bs : List Byte} {l m : Bool}
    (h : s.qcur + bs.length + (selectCmds s m).length ≤ s.par.qcap) :
    csSeq m ((s.selecting l).append bs) = .ok () ((s.selecting m).append (bs ++ selectCmds s m)) := by
  have hcmds : selectCmds ((s.selecting l).append bs) m = selectCmds s m := by
    simp [selectCmds, State.selecting, selectVal_selectVal]
  have hshadow : ((s.selecting l).append bs).selecting m = (s.selecting m).append bs := by
    simp [State.selecting, State.append, selectVal_selectVal]
  rw [csSeq_ok (by simpa [hcmds] using h), hcmds, hshadow, State.append_append]

/-! ## SPI.ASSERT and SPI.CLEAR (R166, R171) -/

/-- A chip-select change flushed from an empty queue is one write. -/
theorem csSeq_flush {s : State} (hrep : 0 < s.par.spiSettleRepeat) (hacc : s.chan.accepts = true)
    (hroom : s.room (3 * s.par.spiSettleRepeat) = true) (level : Bool) :
    ((csSeq level s).bind fun _ t => flush t) = .ok () ((s.selecting level).sent (selectCmds s level)) := by
  obtain ⟨hq, hfit⟩ := State.room_iff.1 hroom
  rw [csSeq_ok (by rw [selectCmds_length]; omega), Res.ok_bind]
  exact flush_append _ _ hq (selectCmds_ne_nil hrep level) hacc

/-- Settles O36: the two operations are one change, to the active and to the idle level. -/
theorem selectChangesOnlyTheSelectPin : Obligations.SelectChangesOnlyTheSelectPin := by
  intro s hopen hproto hrep hacc hroom
  have hpre := needProto_eq_none.2 ⟨hopen, hproto⟩
  have hseq := csSeq_flush hrep hacc hroom
  exact ⟨runOp_ok .spiAssert _ spiAssert (fun _ => .done) s hpre (hseq s.spiCsActiveHigh),
    runOp_ok .spiClear _ spiClear (fun _ => .done) s hpre (hseq !s.spiCsActiveHigh), selectVal_getLsbD⟩

/-! ## What a transfer checks (R168, R170, R298) -/

theorem needSpiOut_eq {s : State} (hopen : s.ch = .opened) (hproto : s.proto = .spi) (n : Nat) (out : List Byte) :
    needSpiOut n out s = sized .sizes (transferMisfit s.par n (spiBytes n) out) := by
  rw [needSpiOut, needProto_eq_none.2 ⟨hopen, hproto⟩, orElse_none]

theorem needSpiIn_eq {s : State} (hopen : s.ch = .opened) (hproto : s.proto = .spi) (n : Nat) :
    needSpiIn n s = sized .sizes (spiInMisfit s.par n) := by
  rw [needSpiIn, needProto_eq_none.2 ⟨hopen, hproto⟩, orElse_none]

theorem needSpiOut_eq_none {s : State} {n : Nat} {out : List Byte} :
    needSpiOut n out s = none ↔ (s.ch = .opened ∧ s.proto = .spi)
      ∧ 1 ≤ n ∧ out.length = ceil8 n ∧ spiBytes n ≤ s.par.maxBlock := by
  rw [needSpiOut, orElse_eq_none, needProto_eq_none, sized_eq_none, transferMisfit_eq_none]

theorem needSpiIn_eq_none {s : State} {n : Nat} :
    needSpiIn n s = none ↔ (s.ch = .opened ∧ s.proto = .spi) ∧ 1 ≤ n ∧ spiBytes n ≤ s.par.maxBlock := by
  rw [needSpiIn, orElse_eq_none, needProto_eq_none, sized_eq_none, spiInMisfit, Option.or_eq_none_iff,
    atLeastOne_eq_none, atMost_eq_none]

theorem spiInMisfit_too_many {par : Config.Params} {n : Nat} (h : par.maxBlock < spiBytes n) :
    spiInMisfit par n = some (spiBytes n, par.maxBlock) := by
  have hn : 1 ≤ n := by unfold spiBytes at h; omega
  rw [spiInMisfit, atLeastOne_eq_none.2 hn, atMost, if_pos h]
  rfl

/-- Settles O40: the first size that does not agree is the fault of the check. -/
theorem spiSizesAreChecked : Obligations.SpiSizesAreChecked := by
  intro s n out hopen hproto
  refine ⟨fun need available h => ?_, ?_, fun hmany => ?_⟩
  · have hpre : needSpiOut n out s = some (.sizing, .sizes need available) := by
      rw [needSpiOut_eq hopen hproto, spiBytes, transferMisfit_of_misfits h]
      rfl
    exact ⟨runOp_early .spiTransact _ _ _ s hpre, runOp_early .spiWrite _ _ _ s hpre⟩
  · rintro rfl
    exact runOp_early .spiRead _ _ _ s (needSpiIn_eq hopen hproto 0)
  · have hpre : needSpiIn n s = some (.sizing, .sizes (n / 8) s.par.maxBlock) := by
      rw [needSpiIn_eq hopen hproto, spiInMisfit_too_many hmany]
      rfl
    exact runOp_early .spiRead _ _ _ s hpre

/-! ## The shifts of a mode (R167, R172) -/

/-- The read-write shift of a mode. -/
def spiIoOp : SpiMode → WriteOp
  | .m0 => .ioWnRpMsb
  | .m1 => .ioWpRnMsb
  | .m2 => .ioWpRnMsb
  | .m3 => .ioWpRnMsb

/-- The write-only shift of a mode. -/
def spiOutOp : SpiMode → WriteOp
  | .m0 => .outWnMsb
  | .m1 => .outWpMsb
  | .m2 => .outWpMsb
  | .m3 => .outWpMsb

/-- The read-only shift of a mode. -/
def spiInOp : SpiMode → ReadOp
  | .m0 => .rpMsb
  | .m1 => .rnMsb
  | .m2 => .rnMsb
  | .m3 => .rnMsb

/-- The byte and the bit command of a writing shift, those present, for `n` bits of `out` (R167). -/
def spiOutCmds (o : WriteOp) (n : Nat) (out : List Byte) : List Byte :=
  cmdUnless (n / 8) (o.bytesInstr (out.take (n / 8))) ++ cmdUnless (n % 8) (o.bitsInstr (n % 8) (spiLastByte n out))

/-- The byte and the bit command of a reading shift, those present, for `n` bits (R167). -/
def spiInCmds (o : ReadOp) (n : Nat) : List Byte :=
  cmdUnless (n / 8) (o.bytesInstr (n / 8)) ++ cmdUnless (n % 8) (o.bitsInstr (n % 8))

theorem spiDataOut_flatten (o : WriteOp) {n : Nat} {out : List Byte} (hlen : out.length = ceil8 n) :
    (spiDataOut ((CmdKey.bytesW o).opcode, (CmdKey.bitsW o).opcode) n out).flatten = spiOutCmds o n out := by
  have htake : (out.take (n / 8)).length = n / 8 := List.length_take_of_le (by rw [hlen, ceil8]; omega)
  rw [spiDataOut, List.flatten_append, spiOutCmds]
  congr 1
  · unfold cmdUnless spiBytes
    split
    · rfl
    · simp [encodeCmd_bytesW, encSbw, htake]
  · unfold cmdUnless spiBits
    split
    · rfl
    · simp [encodeCmd_bitsW, encBitsW, spiLastByte, topBits, spiBytes]

theorem spiDataIn_flatten (o : ReadOp) (n : Nat) :
    (spiDataIn ((CmdKey.bytesR o).opcode, (CmdKey.bitsR o).opcode) n).flatten = spiInCmds o n := by
  rw [spiDataIn, List.flatten_append, spiInCmds]
  congr 1
  · unfold cmdUnless spiBytes
    split
    · rfl
    · simp [encodeCmd_bytesR, encSbr]
  · unfold cmdUnless spiBits
    split
    · rfl
    · simp [encodeCmd_bitsR, encBitsR]

theorem spiDataOut_io (m : SpiMode) {n : Nat} {out : List Byte} (hlen : out.length = ceil8 n) :
    (spiDataOut (spiIoOps m) n out).flatten = spiOutCmds (spiIoOp m) n out := by
  have hops : spiIoOps m = ((CmdKey.bytesW (spiIoOp m)).opcode, (CmdKey.bitsW (spiIoOp m)).opcode) := by
    cases m <;> rfl
  rw [hops, spiDataOut_flatten _ hlen]

theorem spiDataOut_out (m : SpiMode) {n : Nat} {out : List Byte} (hlen : out.length = ceil8 n) :
    (spiDataOut (spiOutOps m) n out).flatten = spiOutCmds (spiOutOp m) n out := by
  have hops : spiOutOps m = ((CmdKey.bytesW (spiOutOp m)).opcode, (CmdKey.bitsW (spiOutOp m)).opcode) := by
    cases m <;> rfl
  rw [hops, spiDataOut_flatten _ hlen]

theorem spiDataIn_in (m : SpiMode) (n : Nat) : (spiDataIn (spiInOps m) n).flatten = spiInCmds (spiInOp m) n := by
  have hops : spiInOps m = ((CmdKey.bytesR (spiInOp m)).opcode, (CmdKey.bitsR (spiInOp m)).opcode) := by
    cases m <;> rfl
  rw [hops, spiDataIn_flatten]

theorem transactCmds_eq (s : State) (n : Nat) (out : List Byte) :
    transactCmds s n out = selectCmds s s.spiCsActiveHigh ++ spiOutCmds (spiIoOp s.spiMode) n out
      ++ selectCmds s (!s.spiCsActiveHigh) ++ encodeCmd .sendImm := by
  unfold transactCmds spiOutCmds
  cases s.spiMode <;> simp only [List.append_assoc] <;> rfl

theorem spiWriteCmds_eq (s : State) (n : Nat) (out : List Byte) :
    spiWriteCmds s n out = spiOutCmds (spiOutOp s.spiMode) n out := by
  unfold spiWriteCmds spiOutCmds
  cases s.spiMode <;> rfl

theorem spiReadCmds_eq (s : State) (n : Nat) :
    spiReadCmds s n = spiInCmds (spiInOp s.spiMode) n ++ encodeCmd .sendImm := by
  unfold spiReadCmds spiInCmds
  cases s.spiMode <;> rfl

/-! ## SPI.TRANSACT (R168) -/

/-- A flush and a read after it that the channel answers: one write, then the decode of the response. -/
theorem flush_readExact_answered {γ : Type} {s : State} {bs resp : List Byte} {k : Nat} {c : Chan}
    (hq : s.qcur = 0) (hb : bs ≠ []) (hacc : s.chan.accepts = true)
    (hread : (s.sent bs).chan.readExact k = (.ok resp, c)) (g : List Byte → γ) :
    ((flush (s.append bs)).bind fun _ t => (readExact k t).bind fun resp u => .ok (g resp) u)
      = .ok (g resp) { s.sent bs with chan := c } := by
  rw [flush_append s bs hq hb hacc, Res.ok_bind, readExact_ok k _ hread, Res.ok_bind]
  rfl

/-- More emits after bytes that were appended. -/
theorem emitAll_append {s : State} {bs : List Byte} {l : List (List Byte)}
    (h : s.qcur + (bs ++ l.flatten).length ≤ s.par.qcap) :
    emitAll l (s.append bs) = .ok () (s.append (bs ++ l.flatten)) := by
  rw [List.length_append, ← Nat.add_assoc] at h
  rw [emitAll_ok l (s.append bs) h, State.append_append]

theorem emit_append {s : State} {bs cs : List Byte} (h : s.qcur + (bs ++ cs).length ≤ s.par.qcap) :
    emit cs (s.append bs) = .ok () (s.append (bs ++ cs)) := by
  rw [List.length_append, ← Nat.add_assoc] at h
  rw [emit_ok cs (s.append bs) h, State.append_append]

/-- The frame and its shifts are buffered one after the other, and the shadow ends with the select bit idle. -/
theorem spiTransact_buffered {s : State} {n : Nat} {out : List Byte} (hlen : out.length = ceil8 n)
    (hfit : s.qcur + (transactCmds s n out).length ≤ s.par.qcap) :
    spiTransact n out s =
      (flush ((s.selecting !s.spiCsActiveHigh).append (transactCmds s n out))).bind fun _ x =>
        (readExact (spiReadLen n) x).bind fun resp y => .ok (spiDecode n resp) y := by
  generalize hshifts : spiDataOut (spiIoOps s.spiMode) n out = shifts
  have hcmds : transactCmds s n out = selectCmds s s.spiCsActiveHigh ++ shifts.flatten
      ++ selectCmds s (!s.spiCsActiveHigh) ++ [Config.opmap.sendImm] := by
    rw [transactCmds_eq, ← hshifts, spiDataOut_io s.spiMode hlen]
    rfl
  rw [hcmds] at hfit ⊢
  have hframe := hfit
  simp only [List.length_append] at hframe
  have hselect : csSeq s.spiCsActiveHigh s = _ := csSeq_ok (by omega)
  have hdata : emitAll shifts ((s.selecting s.spiCsActiveHigh).append (selectCmds s s.spiCsActiveHigh)) = _ :=
    emitAll_append (by rw [List.length_append, State.selecting_qcur, State.selecting_par]; omega)
  rw [spiTransact, csActive, csIdle, csActive, hshifts, hselect, Res.ok_bind, hdata, Res.ok_bind,
    csSeq_again (by rw [List.length_append]; omega), Res.ok_bind, emit_append (s := s.selecting _) hfit, Res.ok_bind]

theorem transactCmds_ne_nil (s : State) (n : Nat) (out : List Byte) : transactCmds s n out ≠ [] := by
  simp [transactCmds, encodeCmd]

/-- Settles O37: the frame is one write, and its read is answered. -/
theorem spiTransactFramesAndDecodes : Obligations.SpiTransactFramesAndDecodes := by
  intro s n out resp c hopen hproto _ _ hn hlen hbytes hacc hroom hread
  obtain ⟨hq, hfit⟩ := State.room_iff.1 hroom
  have hpre : needSpiOut n out s = none := needSpiOut_eq_none.2 ⟨⟨hopen, hproto⟩, hn, hlen, hbytes⟩
  have hbody := spiTransact_buffered (s := s) (n := n) hlen (by omega)
  have hend := flush_readExact_answered (s := s.selecting !s.spiCsActiveHigh) hq (transactCmds_ne_nil s n out) hacc
    hread (spiDecode n)
  exact runOp_ok .spiTransact _ _ .bytes s hpre (hbody.trans hend)

/-! ## The response of the reading shifts (R167, R170) -/

/-- The pulses of a data shift hold TMS. -/
theorem Chan.dataPulses_clocks (w r : Option Edge) (bits : List Bool) (c : Chan) :
    ∃ ps, c.Clocks ps [] (c.dataPulses w r bits).2 := by
  have hheld : ∀ x ∈ bits.map fun b => (b, c.eng.tmsLevel), x.2 = c.eng.tmsLevel := by simp
  obtain ⟨ps, ⟨hwire, hlevels, -⟩, -, hsame, hgath, hlow⟩ := c.pulses_spec w r
    (bits.map fun b => (b, c.eng.tmsLevel))
  obtain ⟨-, hlevel, -⟩ := Chan.pinsAfter_of_lowVal hlow
  have htms := map_tms_of_levels hlevels
  refine ⟨ps, hsame, hwire, hgath.trans (List.append_nil _).symm, ?_, fun hd => ?_⟩
  · rw [htms, List.getLast?_map]
    exact hlevel
  · rw [htms]
    exact Chan.pulses_target hd (.inr hheld) r

theorem Chan.readBytes_clocks (ord : BitOrder) (r : Edge) (n : Nat) (c : Chan) :
    ∃ ps, c.Clocks ps [] (c.readBytes ord r n).2 := by
  induction n generalizing c with
  | zero => exact ⟨[], .refl c⟩
  | succ n ih =>
    obtain ⟨ps, hbyte⟩ := c.dataPulses_clocks none (some r) (List.replicate 8 c.eng.dataOut)
    obtain ⟨qs, hrest⟩ := ih (c.dataPulses none (some r) (List.replicate 8 c.eng.dataOut)).2
    exact ⟨ps ++ qs, hbyte.trans hrest⟩

/-- A byte-oriented read gathers as many bytes as its count (R231 to R234). -/
theorem engCmd_bytesR_clocks (o : ReadOp) (n : Nat) (c : Chan) :
    ∃ ps rs, c.Clocks ps rs (engCmd (o.bytesInstr n) c) ∧ rs.length = n := by
  have hin : ∀ ord r, ∃ ps rs, c.Clocks ps rs (c.inBytes ord r n) ∧ rs.length = n := fun ord r => by
    obtain ⟨ps, hclocks⟩ := c.readBytes_clocks ord r n
    exact ⟨ps, _, hclocks.gather _, c.readBytes_length ord r n⟩
  cases o <;> exact hin _ _

/-- A bit-oriented read gathers one byte (R235 to R238). -/
theorem engCmd_bitsR_clocks (o : ReadOp) {k : Nat} (h : 1 ≤ k ∧ k ≤ 8) (c : Chan) :
    ∃ ps rs, c.Clocks ps rs (engCmd (o.bitsInstr k) c) ∧ rs.length = 1 := by
  have hin : ∀ ord r, ∃ ps rs, c.Clocks ps rs (c.inBits ord r k) ∧ rs.length = 1 := fun ord r => by
    obtain ⟨ps, hclocks⟩ := c.dataPulses_clocks none (some r) (List.replicate k c.eng.dataOut)
    obtain ⟨stale, hgather⟩ := hclocks.gatherBits ord
      (c.dataPulses none (some r) (List.replicate k c.eng.dataOut)).1
    rw [Chan.inBits, c.bitCount_ok h]
    exact ⟨ps, _, hgather, rfl⟩
  cases o <;> exact hin _ _

/-- A command left out for a count of 0, or executed with `m` response bytes. -/
theorem Chan.executes_cmdUnless {c : Chan} {i : Instr} {rest : List Byte} {k m : Nat}
    (htx : c.tx = cmdUnless k i ++ rest) (hzero : k = 0 → m = 0) (hback : k ≠ 0 → i.CmdReadsBack)
    (hclocks : k ≠ 0 → ∀ d : Chan, ∃ ps rs, d.Clocks ps rs (engCmd i d) ∧ rs.length = m) :
    ∃ ps rs d, c.Executes rest ps rs d ∧ rs.length = m := by
  unfold cmdUnless at htx
  split at htx
  · rename_i hk
    obtain rfl : c.tx = rest := htx
    exact ⟨[], [], c, .refl c, (hzero hk).symm⟩
  · rename_i hk
    obtain ⟨ps, rs, hcmd, hlen⟩ := hclocks hk { c with tx := rest }
    exact ⟨ps, rs, _, Chan.executes_cmd (hback hk) htx hcmd, hlen⟩

/-- The reading shifts of a transfer at the front of the stream gather its response. -/
theorem Chan.executes_spiInCmds {c : Chan} {o : ReadOp} {n : Nat} {rest : List Byte} (hmax : n / 8 ≤ 65536)
    (htx : c.tx = spiInCmds o n ++ rest) :
    ∃ ps rs d, c.Executes rest ps rs d ∧ rs.length = spiReadLen n := by
  rw [spiInCmds, List.append_assoc] at htx
  obtain ⟨ps, rs, d, hbytes, hrs⟩ := Chan.executes_cmdUnless (m := n / 8) htx id
    (fun hk => o.bytesInstr_readsBack (by simp only [byteCountOk, Bool.and_eq_true, decide_eq_true_eq]; omega))
    fun _ => engCmd_bytesR_clocks o (n / 8)
  obtain ⟨qs, us, e, hbits, hus⟩ := Chan.executes_cmdUnless (m := partCount (n % 8)) hbytes.tx (fun hk => if_pos hk)
    (fun hk => o.bitsInstr_readsBack (by simp only [bitCountOk, Bool.and_eq_true, decide_eq_true_eq]; omega))
    fun hk => by rw [partCount, if_neg hk]; exact engCmd_bitsR_clocks o (by omega)
  exact ⟨ps ++ qs, rs ++ us, e, hbytes.trans hbits, by rw [List.length_append, hrs, hus]; rfl⟩

/-- When SEND_IMM is all that is left, the engine finishes with it and every response is incoming (R71, R273). -/
theorem Chan.Executes.settle_sendImm {c d : Chan} {ps : List Pulse} {rs : List Byte}
    (h : c.Executes (encodeCmd .sendImm) ps rs d) :
    c.settle.tx = [] ∧ c.settle.turns = c.turns ∧ c.settle.incoming = c.incoming ++ rs := by
  obtain ⟨-, hrx, -, -, hfl, -, -, hturns, -⟩ := h.clocks.same
  rw [h.settles, Chan.settle_sendImm h.tx, cmdSendImm_incoming]
  refine ⟨rfl, hturns, ?_⟩
  simp only [Chan.incoming, hrx, hfl, h.clocks.gathered, List.append_assoc]

/-- A quiet channel answers the read of a transfer that only reads (R62, R170). -/
theorem spiReadCmds_answered {s : State} {n : Nat} (hn : 1 ≤ n) (hmax : n / 8 ≤ 65536) (hquiet : s.chan.Quiet) :
    ∃ resp c, (s.sent (spiReadCmds s n)).chan.readExact (spiReadLen n) = (.ok resp, c) := by
  obtain ⟨hturns, htx, hincoming⟩ := hquiet
  have hsent : (s.sent (spiReadCmds s n)).chan
      = Chan.called (.write (spiReadCmds s n)) { s.chan with tx := spiReadCmds s n } := by
    rw [State.sent_chan, Chan.write_last hturns, htx, List.nil_append]
  rw [hsent]
  obtain ⟨ps, rs, d, hexec, hrs⟩ := Chan.executes_spiInCmds
    (c := Chan.called (.write (spiReadCmds s n)) { s.chan with tx := spiReadCmds s n }) hmax (spiReadCmds_eq s n)
  obtain ⟨hstream, hnoturns, hresponse⟩ := hexec.settle_sendImm
  have hlen : (s.chan.incoming ++ rs).length = spiReadLen n := by rw [hincoming, List.nil_append, hrs]
  have hpos : 0 < spiReadLen n := by
    unfold spiReadLen spiBytes spiBits partCount
    split <;> omega
  obtain ⟨e, hread, -⟩ := Chan.readExact_everything hpos ((congrArg List.length hresponse).trans hlen) hstream
    (hnoturns.trans hturns)
  exact ⟨_, e, hread⟩

/-! ## SPI.WRITE and SPI.READ (R169, R170) -/

theorem spiWriteCmds_ne_nil (s : State) {n : Nat} (hn : 1 ≤ n) (out : List Byte) : spiWriteCmds s n out ≠ [] := by
  have hpresent : n / 8 ≠ 0 ∨ n % 8 ≠ 0 := by omega
  have hcmds := spiWriteCmds_eq s n out
  rw [spiOutCmds, cmdUnless, cmdUnless] at hcmds
  obtain h | h := hpresent <;> simp [hcmds, h, encodeCmd_bytesW, encodeCmd_bitsW, encSbw, encBitsW]

theorem spiWrite_sent {s : State} {n : Nat} {out : List Byte} (hn : 1 ≤ n) (hlen : out.length = ceil8 n)
    (hacc : s.chan.accepts = true) (hroom : s.room (spiWriteCmds s n out).length = true) :
    spiWrite n out s = .ok () (s.sent (spiWriteCmds s n out)) := by
  obtain ⟨hq, hfit⟩ := State.room_iff.1 hroom
  have hshifts : (spiDataOut (spiOutOps s.spiMode) n out).flatten = spiWriteCmds s n out :=
    (spiDataOut_out s.spiMode hlen).trans (spiWriteCmds_eq s n out).symm
  rw [← hshifts] at hfit ⊢
  exact emitAll_flush _ s hq (hshifts ▸ spiWriteCmds_ne_nil s hn out) hfit hacc

theorem spiRead_answered {s : State} {n : Nat} {resp : List Byte} {c : Chan} (hacc : s.chan.accepts = true)
    (hroom : s.room (spiReadCmds s n).length = true)
    (hread : (s.sent (spiReadCmds s n)).chan.readExact (spiReadLen n) = (.ok resp, c)) :
    spiRead n s = .ok (spiDecode n resp) { s.sent (spiReadCmds s n) with chan := c } := by
  obtain ⟨hq, hfit⟩ := State.room_iff.1 hroom
  have hemits : (spiDataIn (spiInOps s.spiMode) n ++ [[Config.opmap.sendImm]]).flatten = spiReadCmds s n := by
    rw [List.flatten_append, spiDataIn_in, spiReadCmds_eq]
    rfl
  have hne : spiReadCmds s n ≠ [] := by simp [spiReadCmds, encodeCmd]
  rw [spiRead, emitAll_ok _ s (by rw [hemits]; omega), Res.ok_bind, hemits]
  exact flush_readExact_answered hq hne hacc hread (spiDecode n)

/-- Settles O38: the write, the read answered, and the answer of a quiet channel. -/
theorem spiWriteAndReadSendTheirShifts : Obligations.SpiWriteAndReadSendTheirShifts := by
  intro s n hopen hproto _ hn hbytes hacc
  refine ⟨fun out hlen hroom => ?_, fun hroom => ⟨fun resp c hread => ?_, fun hwf hquiet => ?_⟩⟩
  · have hpre : needSpiOut n out s = none := needSpiOut_eq_none.2 ⟨⟨hopen, hproto⟩, hn, hlen, hbytes⟩
    exact runOp_ok .spiWrite _ _ _ s hpre (spiWrite_sent hn hlen hacc hroom)
  · have hpre : needSpiIn n s = none := needSpiIn_eq_none.2 ⟨⟨hopen, hproto⟩, hn, hbytes⟩
    exact runOp_ok .spiRead _ _ .bytes s hpre (spiRead_answered hacc hroom hread)
  · exact spiReadCmds_answered hn (hbytes.trans (of_decide_eq_true (Bool.and_eq_true_iff.1 hwf).1)) hquiet

end Sys2Proof.Machine

/-! PROOF. The I2C controller (spec/45_i2c.md R181 to R190; 60_exceptions.md R296, R297, R300). A phase is an append after
which the shadows have its pins, and of several phases the last counts, so that every step of a transaction is said in the
commands of the state it began in. `Chan.Runs` is the engine at work on a byte operation, with the levels it samples and
the responses it gathers. -/

namespace Sys2Proof.Machine

/-! ## A phase (R181) -/

/-- A phase keeps the upper six bits and sets the two bus pins by the table alone. -/
theorem phasePins_eq (od : Bool) (v d : Byte) (scl : Bool) (sda : Sda) :
    phasePins od v d scl sda
      = ((v &&& 0xFC) ||| (phasePins od 0 0 scl sda).1, (d &&& 0xFC) ||| (phasePins od 0 0 scl sda).2) := by
  cases od <;> cases scl <;> cases sda <;> simp [phasePins]

theorem phasePins_zero_upper (od : Bool) (scl : Bool) (sda : Sda) :
    (phasePins od 0 0 scl sda).1 &&& 0xFC = 0 ∧ (phasePins od 0 0 scl sda).2 &&& 0xFC = 0 := by
  cases od <;> cases scl <;> cases sda <;> decide

/-- Of two phases the second counts. -/
theorem phasePins_again (od : Bool) (v d : Byte) (scl scl' : Bool) (sda sda' : Sda) :
    phasePins od (phasePins od v d scl sda).1 (phasePins od v d scl sda).2 scl' sda' = phasePins od v d scl' sda' := by
  have hupper : ∀ x y : Byte, y &&& 0xFC = 0 → ((x &&& 0xFC) ||| y) &&& 0xFC = x &&& 0xFC := fun x y hy => by
    rw [BitVec.and_or_distrib_right, hy, BitVec.and_assoc]
    exact BitVec.or_zero
  obtain ⟨hval, hdir⟩ := phasePins_zero_upper od scl sda
  rw [phasePins_eq od _ _ scl' sda', phasePins_eq od v d scl sda, phasePins_eq od v d scl' sda']
  simp only [hupper v _ hval, hupper d _ hdir]

/-- No phase changes the direction of the data-in pin. -/
theorem phasePins_dataIn (od : Bool) (v d : Byte) (scl : Bool) (sda : Sda) :
    (phasePins od v d scl sda).2.getLsbD dataInBit = d.getLsbD dataInBit := by
  have htable : (phasePins od 0 0 scl sda).2.getLsbD dataInBit = false := by
    cases od <;> cases scl <;> cases sda <;> rfl
  have hkept : (0xFC : Byte).getLsbD dataInBit = true := rfl
  rw [phasePins_eq, BitVec.getLsbD_or, BitVec.getLsbD_and, htable, hkept, Bool.or_false, Bool.and_true]

theorem phaseVal_eq (od : Bool) (v d : Byte) (scl : Bool) (sda : Sda) :
    phaseVal od v scl sda = (phasePins od v d scl sda).1 := by
  have hmask : ~~~idleMask = 0xFC := rfl
  cases od <;> cases scl <;> cases sda <;> simp [phaseVal, phasePins, hmask, sclMask, sdaMask, BitVec.or_assoc]

theorem phaseDir_eq (od : Bool) (v d : Byte) (scl : Bool) (sda : Sda) :
    phaseDir od d sda = (phasePins od v d scl sda).2 := by
  have hmask : ~~~idleMask = 0xFC := rfl
  cases od <;> cases scl <;> cases sda <;> simp [phaseDir, phasePins, hmask, sclMask, sdaMask, BitVec.or_assoc]

/-- The shadows after a phase from the state itself (R29, R181). -/
def State.pinned (s : State) (scl : Bool) (sda : Sda) : State := s.afterPhase s scl sda

@[simp] theorem State.pinned_par (s : State) (scl : Bool) (sda : Sda) : (s.pinned scl sda).par = s.par := rfl

@[simp] theorem State.pinned_qcur (s : State) (scl : Bool) (sda : Sda) : (s.pinned scl sda).qcur = s.qcur := rfl

@[simp] theorem State.pinned_chan (s : State) (scl : Bool) (sda : Sda) : (s.pinned scl sda).chan = s.chan := rfl

@[simp] theorem State.pinned_append (s : State) (bs : List Byte) (scl : Bool) (sda : Sda) :
    (s.append bs).pinned scl sda = (s.pinned scl sda).append bs := rfl

@[simp] theorem State.pinned_pinned (s : State) (scl scl' : Bool) (sda sda' : Sda) :
    (s.pinned scl sda).pinned scl' sda' = s.pinned scl' sda' := by
  simp [State.pinned, State.afterPhase, phasePins_again]

@[simp] theorem phaseCmd_append (s : State) (bs : List Byte) : phaseCmd (s.append bs) = phaseCmd s := rfl

@[simp] theorem phaseCmd_pinned (s : State) (scl : Bool) (sda : Sda) : phaseCmd (s.pinned scl sda) = phaseCmd s := by
  funext scl' sda'
  simp [phaseCmd, State.pinned, State.afterPhase, phasePins_again]

@[simp] theorem phaseCmd_length (s : State) (scl : Bool) (sda : Sda) : (phaseCmd s scl sda).length = 3 := rfl

@[simp] theorem holdCmds_append (s : State) (bs : List Byte) : holdCmds (s.append bs) = holdCmds s := rfl

@[simp] theorem holdCmds_pinned (s : State) (scl : Bool) (sda : Sda) : holdCmds (s.pinned scl sda) = holdCmds s := by
  funext scl' sda'
  simp [holdCmds]

@[simp] theorem holdCmds_length (s : State) (scl : Bool) (sda : Sda) :
    (holdCmds s scl sda).length = 3 * s.par.i2cRepeat := by simp [holdCmds, Nat.mul_comm]

/-- With room for it, a phase appends its pin-set and leaves its pins in the shadows. -/
theorem i2cPhase_ok {s : State} {scl : Bool} {sda : Sda} (h : s.qcur + 3 ≤ s.par.qcap) :
    i2cPhase scl sda s = .ok () ((s.pinned scl sda).append (phaseCmd s scl sda)) := by
  rw [i2cPhase, phaseVal_eq s.cap.od s.plVal s.plDir, phaseDir_eq s.cap.od s.plVal s.plDir scl, setl_ok _ _ s h]
  rfl

/-- A phase after commands that were appended to an earlier one. -/
theorem i2cPhase_again {s : State} {bs : List Byte} {scl scl' : Bool} {sda sda' : Sda}
    (h : s.qcur + bs.length + 3 ≤ s.par.qcap) :
    i2cPhase scl' sda' ((s.pinned scl sda).append bs)
      = .ok () ((s.pinned scl' sda').append (bs ++ phaseCmd s scl' sda')) := by
  rw [i2cPhase_ok (by simpa using h)]
  simp [State.append_append]

/-! ## Conditions (R182 to R185) -/

/-- A phase held appends its pin-sets. -/
theorem i2cPhases_ok (k : Nat) {s : State} {scl : Bool} {sda : Sda} (h : s.qcur + 3 * (k + 1) ≤ s.par.qcap) :
    i2cPhases (k + 1) scl sda s
      = .ok () ((s.pinned scl sda).append (List.replicate (k + 1) (phaseCmd s scl sda)).flatten) := by
  induction k generalizing s with
  | zero => rw [i2cPhases, i2cPhase_ok (by omega), Res.ok_bind, i2cPhases, List.replicate_one, List.flatten_singleton]
  | succ k ih =>
    rw [i2cPhases, i2cPhase_ok (by omega), Res.ok_bind, ih (by simp; omega), State.pinned_append, State.pinned_pinned,
      phaseCmd_append, phaseCmd_pinned, State.append_append, ← List.flatten_cons, ← List.replicate_succ]

theorem i2cHold_ok {s : State} {scl : Bool} {sda : Sda} (hrep : 0 < s.par.i2cRepeat)
    (h : s.qcur + 3 * s.par.i2cRepeat ≤ s.par.qcap) :
    i2cHold scl sda s = .ok () ((s.pinned scl sda).append (holdCmds s scl sda)) := by
  obtain ⟨k, hk⟩ : ∃ k, s.par.i2cRepeat = k + 1 := ⟨s.par.i2cRepeat - 1, by omega⟩
  rw [i2cHold, holdCmds, hk]
  exact i2cPhases_ok k (by omega)

/-- The shadows after phases one after the other. -/
def State.pinnedAll (s : State) (ps : List (Bool × Sda)) : State := ps.foldl (fun t p => t.pinned p.1 p.2) s

theorem State.pinnedAll_append (s : State) (bs : List Byte) (ps : List (Bool × Sda)) :
    (s.append bs).pinnedAll ps = (s.pinnedAll ps).append bs := by
  induction ps generalizing s with
  | nil => rfl
  | cons p ps ih => exact ih (s.pinned p.1 p.2)

/-- Holds that fit are buffered one after the other, then flushed. -/
theorem i2cHolds_buffered (ps : List (Bool × Sda)) {s : State} (hrep : 0 < s.par.i2cRepeat)
    (h : s.qcur + 3 * s.par.i2cRepeat * ps.length ≤ s.par.qcap) :
    i2cHolds ps s = flush ((s.pinnedAll ps).append (ps.flatMap fun p => holdCmds s p.1 p.2)) := by
  induction ps generalizing s with
  | nil => rfl
  | cons p ps ih =>
    rw [List.length_cons, Nat.mul_succ] at h
    rw [i2cHolds, i2cHold_ok hrep (by omega), Res.ok_bind,
      ih (s := (s.pinned p.1 p.2).append _) hrep (by simp; omega), State.pinnedAll_append, State.append_append,
      holdCmds_append, holdCmds_pinned, List.flatMap_cons]
    rfl

/-- The commands of START, RSTART or STOP: its phases, each held. -/
theorem startCmds_eq (s : State) : startCmds s = startPhases.flatMap fun p => holdCmds s p.1 p.2 := by
  simp [startCmds, startPhases]

theorem rstartCmds_eq (s : State) : rstartCmds s = rstartPhases.flatMap fun p => holdCmds s p.1 p.2 := by
  simp [rstartCmds, rstartPhases]

theorem stopCmds_eq (s : State) : stopCmds s = stopPhases.flatMap fun p => holdCmds s p.1 p.2 := by
  simp [stopCmds, stopPhases]

theorem State.pinnedAll_start (s : State) : s.pinnedAll startPhases = s.pinned false .low := by
  simp [State.pinnedAll, startPhases]

theorem State.pinnedAll_rstart (s : State) : s.pinnedAll rstartPhases = s.pinned false .low := by
  simp [State.pinnedAll, rstartPhases]

theorem State.pinnedAll_stop (s : State) : s.pinnedAll stopPhases = s.pinned true .rel := by
  simp [State.pinnedAll, stopPhases]

theorem holds_length (s : State) (ps : List (Bool × Sda)) :
    (ps.flatMap fun p => holdCmds s p.1 p.2).length = 3 * s.par.i2cRepeat * ps.length := by
  simp [List.length_flatMap, Nat.mul_comm]

theorem holds_ne_nil {s : State} (hrep : 0 < s.par.i2cRepeat) {ps : List (Bool × Sda)} (hps : ps ≠ []) :
    (ps.flatMap fun p => holdCmds s p.1 p.2) ≠ [] := by
  refine List.ne_nil_of_length_pos ?_
  rw [holds_length]
  exact Nat.mul_pos (Nat.mul_pos (by decide) hrep) (List.length_pos_iff.2 hps)

section Holds

variable {s : State} {ps : List (Bool × Sda)} {scl : Bool} {sda : Sda} (hps : ps ≠ [])
  (hlast : s.pinnedAll ps = s.pinned scl sda) (hrep : 0 < s.par.i2cRepeat) (hq : s.qcur = 0)
  (hfit : 3 * s.par.i2cRepeat * ps.length ≤ s.par.qcap)
include hps hlast hrep hq hfit

/-- Holds from an empty queue are one write. -/
theorem i2cHolds_sent (hacc : s.chan.accepts = true) :
    i2cHolds ps s = .ok () ((s.pinned scl sda).sent (ps.flatMap fun p => holdCmds s p.1 p.2)) := by
  rw [i2cHolds_buffered ps hrep (by omega), hlast]
  exact flush_append _ _ hq (holds_ne_nil hrep hps) hacc

theorem i2cHolds_refused (hacc : s.chan.accepts = false) :
    i2cHolds ps s = .raised .transport .write ((s.pinned scl sda).sent (ps.flatMap fun p => holdCmds s p.1 p.2)) := by
  rw [i2cHolds_buffered ps hrep (by omega), hlast]
  exact flush_append_fails _ _ hq (holds_ne_nil hrep hps) hacc

end Holds

/-- A condition that passes its check on a channel that accepts. -/
theorem runOp_holds {s : State} {ps : List (Bool × Sda)} {scl : Bool} {sda : Sda} (op : HostOp) (hps : ps ≠ [])
    (hlast : s.pinnedAll ps = s.pinned scl sda) (h : I2cReady s (ps.flatMap fun p => holdCmds s p.1 p.2).length) :
    runOp op (needProto .i2c) (i2cHolds ps) (fun _ => .done) s
      = .next (((s.pinned scl sda).sent (ps.flatMap fun p => holdCmds s p.1 p.2)).answering .done) := by
  obtain ⟨hopen, hproto, hroom, hacc, hrep⟩ := h
  obtain ⟨hq, hfit⟩ := State.room_iff.1 hroom
  rw [holds_length] at hfit
  exact runOp_ok op _ _ _ s (needProto_eq_none.2 ⟨hopen, hproto⟩) (i2cHolds_sent hps hlast hrep hq hfit hacc)

/-- Settles O41: each condition is its phases held, and the last phase stays in the shadows. -/
theorem i2cConditionsSendTheirPhases : Obligations.I2cConditionsSendTheirPhases := by
  intro s
  rw [startCmds_eq, rstartCmds_eq, stopCmds_eq]
  exact ⟨runOp_holds .i2cStart (by decide) s.pinnedAll_start, runOp_holds .i2cRstart (by decide) s.pinnedAll_rstart,
    runOp_holds .i2cStop (by decide) s.pinnedAll_stop⟩

/-! ## Byte operations (R186, R187) -/

theorem writeByteCmds_length (s : State) (v : Byte) : (writeByteCmds s v).length = 13 := rfl

theorem readByteCmds_length (s : State) (ack : Bool) : (readByteCmds s ack).length = 16 := rfl

theorem writeByteCmds_ne_nil (s : State) (v : Byte) : writeByteCmds s v ≠ [] :=
  List.ne_nil_of_length_pos (by rw [writeByteCmds_length]; decide)

theorem readByteCmds_ne_nil (s : State) (ack : Bool) : readByteCmds s ack ≠ [] :=
  List.ne_nil_of_length_pos (by rw [readByteCmds_length]; decide)

/-- The commands of a byte written are buffered, then flushed, and one byte is read. -/
theorem i2cWriteByte_buffered {s : State} (v : Byte) (h : s.qcur + 13 ≤ s.par.qcap) :
    i2cWriteByte v s = (flush ((s.pinned false .rel).append (writeByteCmds s v))).bind fun _ y =>
      (readExact 1 y).bind fun resp z => .ok (ackOf resp) z := by
  have hbyte : [Config.opmap.outBytesWnMsb, 0, 0, v] = encodeCmd (.outBytesWnMsb [v]) := by
    simp [encodeCmd, encSbw, lo8, hi8]
  have hread : [[Config.opmap.inBitsRpMsb, 0], [Config.opmap.sendImm]].flatten
      = encodeCmd (.inBitsRpMsb 1) ++ encodeCmd .sendImm := rfl
  rw [i2cWriteByte, i2cPhase_ok (by omega), Res.ok_bind, emit_append (by simp; omega), Res.ok_bind,
    i2cPhase_again (by simp; omega), Res.ok_bind, emitAll_append (by simp; omega), Res.ok_bind, hbyte, hread]
  simp only [writeByteCmds, List.append_assoc]

/-- The commands of a byte read are buffered, then flushed, and one byte is read. -/
theorem i2cReadByte_buffered {s : State} (ack : Bool) (h : s.qcur + 16 ≤ s.par.qcap) :
    i2cReadByte ack s = (flush ((s.pinned false .rel).append (readByteCmds s ack))).bind fun _ y =>
      (readExact 1 y).bind fun resp z => .ok (byteOf resp 0) z := by
  have hbyte : [Config.opmap.inBytesRpMsb, 0, 0] = encodeCmd (.inBytesRpMsb 1) := rfl
  have hack : [Config.opmap.outBitsWnMsb, 0, if ack then 0x00 else 0x80]
      = encodeCmd (.outBitsWnMsb 1 (if ack then 0x00 else 0x80)) := rfl
  have hsend : [Config.opmap.sendImm] = encodeCmd .sendImm := rfl
  rw [i2cReadByte, i2cPhase_ok (by omega), Res.ok_bind, emit_append (by simp; omega), Res.ok_bind,
    i2cPhase_again (by simp; omega), Res.ok_bind, emit_append (by simp; omega), Res.ok_bind,
    i2cPhase_again (by simp; omega), Res.ok_bind, emit_append (by simp; omega), Res.ok_bind, hbyte, hack, hsend]
  simp only [readByteCmds, List.append_assoc]

/-! ## What the engine samples for a byte operation (R96, R221) -/

/-- Data-in is an input without loopback: a sample is the environment's next level (R264; log entry 13). -/
def Chan.Senses (c : Chan) : Prop := c.eng.loopback = false ∧ c.eng.lowDir.getLsbD dataInBit = false

theorem Chan.Senses.lowLevel {c : Chan} (h : c.Senses) : c.eng.lowLevel dataInBit = none := by
  simp [Engine.lowLevel, drivenMask, h.2]

@[simp] theorem Chan.clockTap_din (tms : Bool) (w : Option Edge) (c : Chan) : (c.clockTap tms w).din = c.din := by
  unfold Chan.clockTap
  split <;> rfl

theorem Chan.pulse_din (w r : Option Edge) (dout tms : Bool) (c : Chan) :
    (c.pulse w r dout tms).2.din = (c.sample r dout).2.din := Chan.clockTap_din _ _ _

/-- Pulses that do not read take no level. -/
theorem Chan.pulses_din_none (w : Option Edge) (ls : List (Bool × Bool)) (c : Chan) :
    (c.pulses w none ls).2.din = c.din := by
  induction ls generalizing c with
  | nil => rfl
  | cons x ls ih => exact (ih _).trans (c.pulse_din w none x.1 x.2)

theorem Chan.pulse_senses {c : Chan} (h : c.Senses) (w r : Option Edge) (dout tms : Bool) :
    (c.pulse w r dout tms).2.Senses := by
  obtain ⟨p, -, -, -, t, d, n, hc⟩ := c.pulse_spec w r dout tms
  rw [hc]
  exact h

/-- A sample of a sensing channel is the next level of the list. -/
theorem Chan.sample_senses {c : Chan} (h : c.Senses) (e : Edge) (dout : Bool) {b : Bool} {later : List Bool}
    (hdin : c.din = b :: later) : c.sample (some e) dout = (some b, { c with din := later }) := by
  simp [Chan.sample, Chan.sampleDin, h.1, h.lowLevel, hdin]

theorem Chan.pulses_samples_length (w : Option Edge) (e : Edge) (ls : List (Bool × Bool)) (c : Chan) :
    (c.pulses w (some e) ls).1.length = ls.length := by
  obtain ⟨ps, hclk, hsamples, -⟩ := c.pulses_spec w (some e) ls
  rw [hsamples, hclk.samplesOf_length]

/-- Pulses that read take one level each from the list of a sensing channel, as far as it reaches. -/
theorem Chan.pulses_din {w : Option Edge} {e : Edge} {ls : List (Bool × Bool)} {c : Chan} (h : c.Senses)
    (hlen : ls.length ≤ c.din.length) :
    c.din = (c.pulses w (some e) ls).1 ++ (c.pulses w (some e) ls).2.din := by
  induction ls generalizing c with
  | nil => rfl
  | cons x ls ih =>
    obtain ⟨b, later, hdin⟩ : ∃ b later, c.din = b :: later :=
      List.exists_cons_of_length_pos (Nat.lt_of_lt_of_le (Nat.succ_pos _) hlen)
    have hsample := Chan.sample_senses h e x.1 hdin
    have hrest : (c.pulse w (some e) x.1 x.2).2.din = later := by rw [Chan.pulse_din, hsample]
    have hbit : (c.pulse w (some e) x.1 x.2).1 = some b := congrArg Prod.fst hsample
    rw [hdin, List.length_cons, List.length_cons] at hlen
    have htail := ih (c.pulse_senses h w (some e) x.1 x.2) (by rw [hrest]; omega)
    rw [Chan.pulses, hbit, hdin, ← hrest, htail]
    rfl

/-! ## A byte operation's stream at work (R70, R88) -/

/-- At the front of the stream stand commands that the engine executes: `rest` is left, and the response bytes `rs` are
incoming. Where `input` holds and there is no loopback, they have taken the levels `bits` from the environment's list. -/
structure Chan.Runs (input : Prop) (c : Chan) (rest : List Byte) (bits : List Bool) (rs : List Byte) (d : Chan) :
    Prop where
  settles : c.settle = d.settle
  tx : d.tx = rest
  calls : d.calls = c.calls
  turns : d.turns = c.turns
  incoming : d.incoming = c.incoming ++ rs
  loopback : d.eng.loopback = c.eng.loopback
  din : input → c.eng.loopback = false → bits.length ≤ c.din.length → c.din = bits ++ d.din

theorem Chan.Runs.refl (input : Prop) (c : Chan) : c.Runs input c.tx [] [] c :=
  ⟨rfl, rfl, rfl, rfl, (List.append_nil _).symm, rfl, fun _ _ _ => rfl⟩

theorem Chan.Runs.trans {input : Prop} {c d e : Chan} {mid rest rs us : List Byte} {bits later : List Bool}
    (h : c.Runs input mid bits rs d) (k : d.Runs input rest later us e) :
    c.Runs input rest (bits ++ later) (rs ++ us) e where
  settles := h.settles.trans k.settles
  tx := k.tx
  calls := k.calls.trans h.calls
  turns := k.turns.trans h.turns
  incoming := by rw [k.incoming, h.incoming, List.append_assoc]
  loopback := k.loopback.trans h.loopback
  din hin hloop hlen := by
    rw [List.length_append] at hlen
    have hfirst := h.din hin hloop (by omega)
    have hcount := congrArg List.length hfirst
    rw [List.length_append] at hcount
    rw [List.append_assoc, ← k.din hin (h.loopback.trans hloop) (by omega), hfirst]

/-- A shift command that is read back is executed. -/
theorem Chan.Clocks.runs {input : Prop} {c d : Chan} {i : Instr} {rest rs : List Byte} {ps : List Pulse}
    {bits : List Bool} (h : Chan.Clocks { c with tx := rest } ps rs d) (hd : engCmd i { c with tx := rest } = d)
    (hi : i.CmdReadsBack) (htx : c.tx = encodeCmd i ++ rest)
    (hdin : input → c.eng.loopback = false → bits.length ≤ c.din.length → c.din = bits ++ d.din) :
    c.Runs input rest bits rs d := by
  obtain ⟨hrest, hrx, -, -, hfl, -, hcalls, hturns, -, -, -, -, -, -, -, -, -, -, hloop, -⟩ := h.same
  refine ⟨(Chan.settle_cmd (htx ▸ hi rest)).trans (congrArg _ hd), hrest, hcalls, hturns, ?_, hloop, hdin⟩
  simp only [Chan.incoming, hrx, hfl, h.gathered, List.append_assoc]

section Commands

variable {input : Prop} {c : Chan} {rest : List Byte}

/-- A pin-set takes value and direction and is recorded; the target and the counter of free values may move (R260). -/
theorem engCmd_setLow_spec (v d : Byte) (c : Chan) : ∃ t n, engCmd (.setLow v d) c =
    { c with
      wire := c.wire ++ [.low v d], eng := { c.eng with lowVal := v, lowDir := d }, target := t, fresh := n } :=
  Chan.movePins_spec _ _

/-- A pin-set is executed without a sample, and the low pins then have its directions (R260). -/
theorem Chan.runs_setLow {v d : Byte} (htx : c.tx = encodeCmd (.setLow v d) ++ rest) :
    ∃ e, c.Runs input rest [] [] e ∧ e.eng.lowDir = d := by
  have hback : decodeCmd c.tx = .cmd (.setLow v d) rest := htx ▸ PsetOp.instr_readsBack .low v d rest
  obtain ⟨t, n, he⟩ := engCmd_setLow_spec v d { c with tx := rest }
  exact ⟨_, ⟨(Chan.settle_cmd hback).trans (congrArg Chan.settle he), rfl, rfl, rfl, (List.append_nil _).symm, rfl,
    fun _ _ _ => rfl⟩, rfl⟩

/-- One byte out: no sample, no response (R224). -/
theorem Chan.runs_outByte {v : Byte} (htx : c.tx = encodeCmd (.outBytesWnMsb [v]) ++ rest) :
    ∃ d, c.Runs input rest [] [] d := by
  obtain ⟨ps, hclocks⟩ := Chan.dataPulses_clocks (some .falling) none (bitsOf .msb v) { c with tx := rest }
  exact ⟨_, hclocks.runs rfl (WriteOp.bytesInstr_readsBack .outWnMsb rfl) htx fun _ _ _ =>
    (Chan.pulses_din_none (some .falling) _ { c with tx := rest }).symm⟩

/-- One bit out: no sample, no response (R228). -/
theorem Chan.runs_outBit {v : Byte} (htx : c.tx = encodeCmd (.outBitsWnMsb 1 v) ++ rest) :
    ∃ d, c.Runs input rest [] [] d := by
  obtain ⟨ps, hclocks⟩ := Chan.dataPulses_clocks (some .falling) none ((bitsOf .msb v).take 1) { c with tx := rest }
  exact ⟨_, hclocks.runs rfl (WriteOp.bitsInstr_readsBack .outWnMsb v rfl) htx fun _ _ _ =>
    (Chan.pulses_din_none (some .falling) _ { c with tx := rest }).symm⟩

/-- One bit in: one sample, which is bit 0 of the response (R235). -/
theorem Chan.runs_inBit (hin : input → c.eng.lowDir.getLsbD dataInBit = false)
    (htx : c.tx = encodeCmd (.inBitsRpMsb 1) ++ rest) :
    ∃ b stale d, c.Runs input rest [b] [capture .msb stale [b]] d := by
  have hlen : (Chan.dataPulses none (some .rising) [c.eng.dataOut] { c with tx := rest }).1.length = 1 :=
    Chan.pulses_samples_length _ _ _ _
  obtain ⟨b, hb⟩ := List.length_eq_one_iff.1 hlen
  obtain ⟨ps, hclocks⟩ := Chan.dataPulses_clocks none (some .rising) [c.eng.dataOut] { c with tx := rest }
  obtain ⟨stale, hgather⟩ := hclocks.gatherBits .msb [b]
  refine ⟨b, stale, _, hgather.runs (i := .inBitsRpMsb 1) ?_ (ReadOp.bitsInstr_readsBack .rpMsb rfl) htx ?_⟩
  · rw [← hb]
    rfl
  · intro hinput hloop hdin
    rw [← hb]
    exact Chan.pulses_din (c := { c with tx := rest }) ⟨hloop, hin hinput⟩ hdin

/-- One byte in: eight samples, the first at bit 7 of the response (R231). -/
theorem Chan.runs_inByte (hin : input → c.eng.lowDir.getLsbD dataInBit = false)
    (htx : c.tx = encodeCmd (.inBytesRpMsb 1) ++ rest) :
    ∃ bits d, bits.length = 8 ∧ c.Runs input rest bits [capture .msb 0 bits] d := by
  have hlen : (Chan.dataPulses none (some .rising) (List.replicate 8 c.eng.dataOut) { c with tx := rest }).1.length = 8 :=
    Chan.pulses_samples_length _ _ _ _
  obtain ⟨ps, hclocks⟩ :=
    Chan.dataPulses_clocks none (some .rising) (List.replicate 8 c.eng.dataOut) { c with tx := rest }
  refine ⟨_, _, hlen, (hclocks.gather _).runs (i := .inBytesRpMsb 1) rfl (ReadOp.bytesInstr_readsBack .rpMsb rfl) htx ?_⟩
  intro hinput hloop hdin
  exact Chan.pulses_din (c := { c with tx := rest }) ⟨hloop, hin hinput⟩ (hlen ▸ hdin)

/-- SEND_IMM at the end of the stream: every response stays incoming (R71, R273). -/
theorem Chan.runs_sendImm (htx : c.tx = encodeCmd .sendImm) : ∃ d, c.Runs input [] [] [] d := by
  have hback : decodeCmd c.tx = .cmd .sendImm [] := htx ▸ NoargOp.instr_readsBack .sendImm []
  exact ⟨cmdSendImm { c with tx := [] }, Chan.settle_cmd hback, rfl, rfl, rfl,
    (cmdSendImm_incoming _).trans (List.append_nil _).symm, rfl, fun _ _ _ => rfl⟩

/-- A phase's pin-set is executed, and data-in then has the direction of the shadow. -/
theorem Chan.runs_phaseCmd {s : State} {scl : Bool} {sda : Sda} (htx : c.tx = phaseCmd s scl sda ++ rest) :
    ∃ d, c.Runs input rest [] [] d ∧ d.eng.lowDir.getLsbD dataInBit = s.plDir.getLsbD dataInBit := by
  obtain ⟨d, hrun, hdir⟩ := Chan.runs_setLow htx
  exact ⟨d, hrun, by rw [hdir, phasePins_dataIn]⟩

/-- The pin-sets of phases one after the other. -/
def phasesCmds (s : State) (ps : List (Bool × Sda)) : List Byte := ps.flatMap fun p => phaseCmd s p.1 p.2

theorem Chan.runs_phasesCmds {s : State} {ps : List (Bool × Sda)} (htx : c.tx = phasesCmds s ps ++ rest) :
    ∃ d, c.Runs input rest [] [] d := by
  induction ps generalizing c with
  | nil =>
    obtain rfl : c.tx = rest := htx
    exact ⟨c, .refl input c⟩
  | cons p ps ih =>
    rw [phasesCmds, List.flatMap_cons, List.append_assoc] at htx
    obtain ⟨d, hfirst, -⟩ := Chan.runs_phaseCmd htx
    obtain ⟨e, hrest⟩ := ih hfirst.tx
    exact ⟨e, hfirst.trans hrest⟩

/-- The commands of a byte written sample its acknowledge, which is bit 0 of the response (R186). -/
theorem Chan.runs_writeByteCmds {s : State} {ps : List (Bool × Sda)} {v : Byte}
    (htx : c.tx = phasesCmds s ps ++ writeByteCmds s v) :
    ∃ b stale d, c.Runs (s.plDir.getLsbD dataInBit = false) [] [b] [capture .msb stale [b]] d := by
  simp only [writeByteCmds, List.append_assoc] at htx
  obtain ⟨c₁, hpins⟩ := Chan.runs_phasesCmds htx
  obtain ⟨c₂, hlow, -⟩ := Chan.runs_phaseCmd hpins.tx
  obtain ⟨c₃, hbyte⟩ := Chan.runs_outByte hlow.tx
  obtain ⟨c₄, hrel, hdir⟩ := Chan.runs_phaseCmd hbyte.tx
  obtain ⟨b, stale, c₅, hack⟩ := Chan.runs_inBit hdir.trans hrel.tx
  obtain ⟨c₆, hsend⟩ := Chan.runs_sendImm hack.tx
  exact ⟨b, stale, c₆, ((((hpins.trans hlow).trans hbyte).trans hrel).trans hack).trans hsend⟩

/-- The commands of a byte read sample its eight bits, the first of which is bit 7 of the response (R187). -/
theorem Chan.runs_readByteCmds {s : State} {ps : List (Bool × Sda)} {ack : Bool}
    (htx : c.tx = phasesCmds s ps ++ readByteCmds s ack) :
    ∃ bits d, bits.length = 8
      ∧ c.Runs (s.plDir.getLsbD dataInBit = false) [] bits [capture .msb 0 bits] d := by
  simp only [readByteCmds, List.append_assoc] at htx
  obtain ⟨c₁, hpins⟩ := Chan.runs_phasesCmds htx
  obtain ⟨c₂, hrel, hdir⟩ := Chan.runs_phaseCmd hpins.tx
  obtain ⟨bits, c₃, hlen, hbyte⟩ := Chan.runs_inByte hdir.trans hrel.tx
  obtain ⟨c₄, hlow, -⟩ := Chan.runs_phaseCmd hbyte.tx
  obtain ⟨c₅, hack⟩ := Chan.runs_outBit hlow.tx
  obtain ⟨c₆, hrel', -⟩ := Chan.runs_phaseCmd hack.tx
  obtain ⟨c₇, hsend⟩ := Chan.runs_sendImm hrel'.tx
  have hall := (((((hpins.trans hrel).trans hbyte).trans hlow).trans hack).trans hrel').trans hsend
  simp only [List.nil_append, List.append_nil] at hall
  exact ⟨bits, c₇, hlen, hall⟩

end Commands

/-! ## Calls that the agent answers (R60; log entry 10) -/

/-- Of the turns `ts` the agent answers the next call, at which it may hand over `least` response bytes, and `us` are
left. -/
def AnswersNext (least : Nat) (ts us : List Turn) : Prop :=
  (ts = [] ∧ us = []) ∨ ∃ g, least ≤ g ∧ ts = .answers g :: us

theorem AnswersNext.last (least : Nat) : AnswersNext least [] [] := .inl ⟨rfl, rfl⟩

theorem AnswersNext.turn {least g : Nat} (h : least ≤ g) (us : List Turn) : AnswersNext least (.answers g :: us) us :=
  .inr ⟨g, h, rfl⟩

theorem AnswersNext.accepts {least : Nat} {c : Chan} {us : List Turn} (h : AnswersNext least c.turns us) :
    c.accepts = true := by
  obtain ⟨hturns, -⟩ | ⟨g, -, hturns⟩ := h <;> simp [Chan.accepts, hturns]

/-- A write, whether it is answered or not, is one call. -/
theorem Chan.write_calls (bs : List Byte) (c : Chan) : (c.write bs).2.calls = c.calls ++ [.write bs] := by
  unfold Chan.write
  split <;> rfl

/-- A write leaves the loopback and the environment's list alone. -/
theorem Chan.write_senses (bs : List Byte) (c : Chan) :
    (c.write bs).2.eng.loopback = c.eng.loopback ∧ (c.write bs).2.din = c.din := by
  unfold Chan.write
  split <;> exact ⟨rfl, rfl⟩

theorem Chan.write_turns {c : Chan} {least : Nat} {us : List Turn} (h : AnswersNext least c.turns us) (bs : List Byte) :
    (c.write bs).2.turns = us := by
  obtain ⟨hturns, rfl⟩ | ⟨g, -, hturns⟩ := h
  · rw [Chan.write_last hturns]
    exact hturns
  · rw [Chan.write_answers hturns]
    rfl

/-- With one response byte incoming, an agent that hands over one at least brings it. -/
theorem Chan.arrived_one {d : Chan} {r : Byte} (hone : d.incoming = [r]) {g : Nat}
    (hg : min 1 (d.inFlight ++ d.eng.gathered).length ≤ g) : d.arrived g = [r] := by
  have hall : d.rx ++ (d.inFlight ++ d.eng.gathered) = [r] := (List.append_assoc _ _ _).symm.trans hone
  have hlen := congrArg List.length hall
  rw [List.length_append, List.length_singleton] at hlen
  rw [Chan.arrived, List.take_of_length_le (by omega), hall]

/-- A read of the one response byte that is incoming takes it in one call (R62, R113). -/
theorem Chan.readLoop_one {d : Chan} {r : Byte} (hone : d.incoming = [r]) {ts us : List Turn}
    (hturns : AnswersNext 1 ts us) : ∃ g, d.readLoop 1 ts [] = (.ok [r], d.chunk g 1 us) ∧ d.arrived g = [r] := by
  have htaken : ∀ g, d.arrived g = [r] → 1 ≤ ((d.arrived g).take 1).length := fun g h => by
    rw [h]
    exact Nat.le_refl 1
  obtain ⟨rfl, rfl⟩ | ⟨g, hg, rfl⟩ := hturns
  · have harrived := Chan.arrived_one hone (Nat.min_le_right 1 _)
    have hcall : d.readLoop 1 [] [] = (.ok ((d.arrived _).take 1), d.chunk _ 1 []) := if_pos (htaken _ harrived)
    exact ⟨_, by rw [hcall, harrived]; rfl, harrived⟩
  · have harrived := Chan.arrived_one hone ((Nat.min_le_left 1 _).trans hg)
    have hcall : d.readLoop 1 (.answers g :: us) [] = (.ok ((d.arrived g).take 1), d.chunk g 1 us) :=
      if_pos (htaken g harrived)
    exact ⟨g, by rw [hcall, harrived]; rfl, harrived⟩

/-- A read of the one response byte of the commands flushed: the channel is left without any, and otherwise as the engine
left it. -/
theorem Chan.Runs.readExact_one {input : Prop} {c d : Chan} {bits : List Bool} {r : Byte} (h : c.Runs input [] bits [r] d)
    (hinc : c.incoming = []) {us : List Turn} (hturns : AnswersNext 1 c.turns us) :
    ∃ e : Chan, c.readExact 1 = (.ok [r], e) ∧ e.tx = [] ∧ e.incoming = [] ∧ e.turns = us
      ∧ e.calls = c.calls ++ [.read 1] ∧ e.eng.loopback = c.eng.loopback ∧ e.din = d.din := by
  have hone : d.incoming = [r] := by rw [h.incoming, hinc, List.nil_append]
  have hsettle : c.settle = d := h.settles.trans (Chan.settle_nil h.tx)
  rw [← h.turns] at hturns
  obtain ⟨g, hread, harrived⟩ := Chan.readLoop_one hone hturns
  have hrest := Chan.take_arrived_append_chunk_incoming g 1 us d
  rw [harrived, hone] at hrest
  refine ⟨d.chunk g 1 us, ?_, h.tx, List.append_right_eq_self.1 hrest, rfl, ?_, h.loopback, rfl⟩
  · rw [Chan.readExact, if_neg (by decide), hsettle, hread]
  · rw [Chan.chunk_calls, h.calls]

/-- A quiet channel answers the read of commands that ask for one response byte. -/
theorem Chan.Quiet.answers_one {s : State} (h : s.chan.Quiet) {cmds : List Byte} (hrun : ∀ c : Chan, c.tx = cmds →
    ∃ input bits r d, c.Runs input [] bits [r] d) :
    ∃ r c, (s.sent cmds).chan.readExact 1 = (.ok [r], c) := by
  obtain ⟨hturns, htx, hincoming⟩ := h
  have hsent : (s.sent cmds).chan = Chan.called (.write cmds) { s.chan with tx := cmds } := by
    rw [State.sent_chan, Chan.write_last hturns, htx, List.nil_append]
  obtain ⟨input, bits, r, d, hruns⟩ := hrun (s.sent cmds).chan (congrArg Chan.tx hsent)
  obtain ⟨e, hread, -⟩ := hruns.readExact_one ((congrArg Chan.incoming hsent).trans hincoming)
    (us := []) (.inl ⟨(congrArg Chan.turns hsent).trans hturns, rfl⟩)
  exact ⟨r, e, hread⟩

/-- Settles O42: one write, the acknowledge read, and the answer of a quiet channel. -/
theorem i2cWriteByteReturnsTheAcknowledge : Obligations.I2cWriteByteReturnsTheAcknowledge := by
  intro s v ⟨hopen, hproto, hroom, hacc, _⟩
  obtain ⟨hq, hfit⟩ := State.room_iff.1 hroom
  rw [writeByteCmds_length] at hfit
  have hpre := needProto_eq_none.2 ⟨hopen, hproto⟩
  refine ⟨fun r c hread => ?_, fun hquiet => hquiet.answers_one fun c htx => ?_⟩
  · have hend := flush_readExact_answered (s := s.pinned false .rel) hq (writeByteCmds_ne_nil s v) hacc hread ackOf
    have hack : ackOf [r] = (r.getLsbD 0 == false) := by simp [ackOf, byteOf]
    rw [← hack]
    exact runOp_ok .i2cWriteByte _ _ .acked s hpre ((i2cWriteByte_buffered v (by omega)).trans hend)
  · obtain ⟨b, stale, d, hruns⟩ := Chan.runs_writeByteCmds (ps := []) htx
    exact ⟨_, _, _, d, hruns⟩

/-- Settles O43: one write, the byte read, and the answer of a quiet channel. -/
theorem i2cReadByteReturnsTheByte : Obligations.I2cReadByteReturnsTheByte := by
  intro s ack ⟨hopen, hproto, hroom, hacc, _⟩
  obtain ⟨hq, hfit⟩ := State.room_iff.1 hroom
  rw [readByteCmds_length] at hfit
  have hpre := needProto_eq_none.2 ⟨hopen, hproto⟩
  refine ⟨fun r c hread => ?_, fun hquiet => hquiet.answers_one fun c htx => ?_⟩
  · have hend := flush_readExact_answered (s := s.pinned false .rel) hq (readByteCmds_ne_nil s ack) hacc hread
      (byteOf · 0)
    exact runOp_ok .i2cReadByte _ _ .byte s hpre ((i2cReadByte_buffered ack (by omega)).trans hend)
  · obtain ⟨bits, d, -, hruns⟩ := Chan.runs_readByteCmds (ps := []) htx
    exact ⟨_, _, _, d, hruns⟩

end Sys2Proof.Machine

/-! PROOF. The I2C transaction helpers (spec/45_i2c.md R188, R189; 60_exceptions.md R297, R300). `State.Underway` is a
state within a transaction, given by the one it began in and the transport calls made; `State.Hears` says besides what a
slave will still put on the line. A helper is a walk through such states. -/

namespace Sys2Proof.Machine

theorem Res.bind_assoc {α β γ : Type} (r : Res α) (f : α → State → Res β) (g : β → State → Res γ) :
    (r.bind f).bind g = r.bind fun a t => (f a t).bind g := by cases r <;> rfl

/-! ## Within a transaction -/

/-- Within a transaction that began in `s`, after these transport calls: nothing of the block has changed but the queue,
which is empty, and the two bus pins of the shadows. -/
structure State.Underway (s : State) (calls : List TCall) (t : State) : Prop where
  frame : ∃ q c v d, t = { s with qbuf := q, qcur := 0, chan := c, plVal := v, plDir := d }
  phases : phaseCmd t = phaseCmd s
  made : t.chan.calls = s.chan.calls ++ calls

namespace State.Underway

variable {s t : State} {calls : List TCall}

theorem begin (hq : s.qcur = 0) : s.Underway [] s where
  frame := ⟨s.qbuf, s.chan, s.plVal, s.plDir, by rw [← hq]⟩
  phases := rfl
  made := (List.append_nil _).symm

theorem par (h : s.Underway calls t) : t.par = s.par := by
  obtain ⟨q, c, v, d, rfl⟩ := h.frame
  rfl

theorem qcur (h : s.Underway calls t) : t.qcur = 0 := by
  obtain ⟨q, c, v, d, rfl⟩ := h.frame
  rfl

theorem holdCmds (h : s.Underway calls t) : Machine.holdCmds t = Machine.holdCmds s := by
  funext scl sda
  rw [Machine.holdCmds, Machine.holdCmds, h.phases, h.par]

theorem writeByteCmds (h : s.Underway calls t) (v : Byte) : Machine.writeByteCmds t v = Machine.writeByteCmds s v := by
  simp only [Machine.writeByteCmds, h.phases]

theorem readByteCmds (h : s.Underway calls t) (ack : Bool) :
    Machine.readByteCmds t ack = Machine.readByteCmds s ack := by
  simp only [Machine.readByteCmds, h.phases]

/-- Commands sent after a phase, and a channel with more calls made. -/
theorem sent (h : s.Underway calls t) (scl : Bool) (sda : Sda) (bs : List Byte) {c : Chan} {more : List TCall}
    (hc : c.calls = t.chan.calls ++ more) :
    s.Underway (calls ++ more) { (t.pinned scl sda).sent bs with chan := c } where
  frame := by
    obtain ⟨q, e, v, d, rfl⟩ := h.frame
    exact ⟨_, c, _, _, rfl⟩
  phases := (phaseCmd_pinned t scl sda).trans h.phases
  made := by
    show c.calls = _
    rw [hc, h.made, List.append_assoc]

/-- One write after a phase, whether it is answered or not. -/
theorem written (h : s.Underway calls t) (scl : Bool) (sda : Sda) (bs : List Byte) :
    s.Underway (calls ++ [.write bs]) ((t.pinned scl sda).sent bs) :=
  h.sent scl sda bs (Chan.write_calls bs t.chan)

end State.Underway

/-! ## The calls that are made whatever the engine does -/

/-- The engine's work leaves the transport calls and the agent's turns alone. -/
def Chan.SameAgent (c d : Chan) : Prop := d.calls = c.calls ∧ d.turns = c.turns

theorem Chan.SameStreams.sameAgent {c d : Chan} (h : c.SameStreams d) : c.SameAgent d := by
  obtain ⟨-, -, -, -, -, -, hcalls, hturns, -⟩ := h
  exact ⟨hcalls, hturns⟩

theorem Chan.movePins_sameAgent (c : Chan) (e : Engine) : c.SameAgent (c.movePins e) := by
  obtain ⟨t, n, h⟩ := c.movePins_spec e
  rw [h]
  exact ⟨rfl, rfl⟩

theorem Chan.readPins_sameAgent (v d o : Byte) (c : Chan) : c.SameAgent (c.readPins v d o) := by
  obtain ⟨b, ps, p, t, n, -, h⟩ := c.readPins_spec v d o
  rw [h]
  exact ⟨rfl, rfl⟩

theorem Chan.gated_sameAgent (g : Gate) (op : Byte) (ops : List Byte) (act : Chan → Chan) (c : Chan)
    (h : c.SameAgent (act c)) : c.SameAgent (c.gated g op ops act) := by
  unfold Chan.gated
  split
  · exact h
  · exact ⟨rfl, rfl⟩

theorem engCmd_sameAgent (i : Instr) (c : Chan) : c.SameAgent (engCmd i c) := by
  cases i
  case outBytesWpMsb | outBytesWnMsb | outBytesWpLsb | outBytesWnLsb => exact (Chan.outBytes_same _ _ _ c).sameAgent
  case outBitsWpMsb | outBitsWnMsb | outBitsWpLsb | outBitsWnLsb => exact (Chan.outBits_same _ _ _ _ c).sameAgent
  case inBytesRpMsb | inBytesRnMsb | inBytesRpLsb | inBytesRnLsb => exact (Chan.inBytes_same _ _ _ c).sameAgent
  case inBitsRpMsb | inBitsRnMsb | inBitsRpLsb | inBitsRnLsb => exact (Chan.inBits_same _ _ _ c).sameAgent
  case ioBytesWnRpMsb | ioBytesWpRnMsb | ioBytesWnRpLsb | ioBytesWpRnLsb =>
    exact (Chan.ioBytes_same _ _ _ _ c).sameAgent
  case ioBitsWnRpMsb | ioBitsWpRnMsb | ioBitsWnRpLsb | ioBitsWpRnLsb => exact (Chan.ioBits_same _ _ _ _ _ c).sameAgent
  case tmsWp | tmsWn => exact (Chan.tmsOut_same _ _ _ c).sameAgent
  case tmsrWpRp | tmsrWnRp | tmsrWpRn | tmsrWnRn => exact (Chan.tmsIo_same _ _ _ _ c).sameAgent
  case setLow v d => exact Chan.movePins_sameAgent { c with wire := c.wire ++ [.low v d] } _
  case getLow | getHigh => exact c.readPins_sameAgent _ _ _
  case div5Off | div5On | ph3On | ph3Off | adaptOn | adaptOff => exact c.gated_sameAgent _ _ _ _ ⟨rfl, rfl⟩
  case odCfg => exact c.gated_sameAgent _ _ _ _ (c.movePins_sameAgent _)
  all_goals exact ⟨rfl, rfl⟩

theorem Chan.engStep_sameAgent {c d : Chan} (h : c.engStep = some d) : c.SameAgent d := by
  unfold Chan.engStep at h
  split at h
  · cases h
    exact engCmd_sameAgent _ _
  · cases h
    exact ⟨rfl, rfl⟩
  · cases h

theorem Chan.engRun_sameAgent (k : Nat) (c : Chan) : c.SameAgent (c.engRun k) := by
  induction k generalizing c with
  | zero => exact ⟨rfl, rfl⟩
  | succ k ih =>
    unfold Chan.engRun
    split
    · rename_i d hstep
      obtain ⟨hcalls, hturns⟩ := Chan.engStep_sameAgent hstep
      obtain ⟨hcalls', hturns'⟩ := ih d
      exact ⟨hcalls'.trans hcalls, hturns'.trans hturns⟩
    · exact ⟨rfl, rfl⟩

/-- A read whose first call fails: none of its bytes, and one call made (R113, R291). -/
theorem Chan.readExact_first_fails {c : Chan} {n k : Nat} {ts : List Turn} (hn : 0 < n)
    (hturns : c.turns = .fails k :: ts) :
    ∃ d : Chan, c.readExact n = (.error 0, d) ∧ d.calls = c.calls ++ [.read n] := by
  obtain ⟨hcalls, hkept⟩ := c.engRun_sameAgent c.tx.length
  refine ⟨Chan.called (.read n) { c.settle with turns := ts }, ?_, congrArg (· ++ [TCall.read n]) hcalls⟩
  rw [Chan.readExact, if_neg (by omega), show c.settle.turns = .fails k :: ts from hkept.trans hturns]
  rfl

/-! ## Where a step of a transaction fails (R300) -/

/-- What both helpers ask of the queue and the parameters: room for a condition and for a byte operation. -/
structure I2cRoom (s : State) (bytes : Nat) : Prop where
  repeats : 0 < s.par.i2cRepeat
  holds : 9 * s.par.i2cRepeat ≤ s.par.qcap
  bytes : bytes ≤ s.par.qcap

namespace State.Underway

variable {s t : State} {calls : List TCall} (h : s.Underway calls t)
include h

/-- A condition of three phases is one write. -/
theorem condition_sent {n : Nat} (hroom : I2cRoom s n) {ps : List (Bool × Sda)} {scl : Bool} {sda : Sda}
    (hlen : ps.length = 3) (hlast : t.pinnedAll ps = t.pinned scl sda) (hacc : t.chan.accepts = true) :
    i2cHolds ps t = .ok () ((t.pinned scl sda).sent (ps.flatMap fun p => Machine.holdCmds s p.1 p.2)) := by
  have hfit : 3 * s.par.i2cRepeat * ps.length ≤ s.par.qcap := by have := hroom.holds; rw [hlen]; omega
  rw [← h.holdCmds]
  rw [← h.par] at hfit
  exact i2cHolds_sent (List.ne_nil_of_length_pos (by omega)) hlast (h.par ▸ hroom.repeats) h.qcur hfit hacc

theorem condition_refused {n : Nat} (hroom : I2cRoom s n) {ps : List (Bool × Sda)} {scl : Bool} {sda : Sda}
    (hlen : ps.length = 3) (hlast : t.pinnedAll ps = t.pinned scl sda) (hacc : t.chan.accepts = false) :
    i2cHolds ps t
      = .raised .transport .write ((t.pinned scl sda).sent (ps.flatMap fun p => Machine.holdCmds s p.1 p.2)) := by
  have hfit : 3 * s.par.i2cRepeat * ps.length ≤ s.par.qcap := by have := hroom.holds; rw [hlen]; omega
  rw [← h.holdCmds]
  rw [← h.par] at hfit
  exact i2cHolds_refused (List.ne_nil_of_length_pos (by omega)) hlast (h.par ▸ hroom.repeats) h.qcur hfit hacc

theorem writeByte_buffered (hroom : I2cRoom s 13) (v : Byte) :
    i2cWriteByte v t = (flush ((t.pinned false .rel).append (Machine.writeByteCmds s v))).bind fun _ y =>
      (readExact 1 y).bind fun resp z => .ok (ackOf resp) z := by
  rw [← h.writeByteCmds]
  exact i2cWriteByte_buffered v (by rw [h.qcur, h.par]; have := hroom.bytes; omega)

theorem readByte_buffered (hroom : I2cRoom s 16) (ack : Bool) :
    i2cReadByte ack t = (flush ((t.pinned false .rel).append (Machine.readByteCmds s ack))).bind fun _ y =>
      (readExact 1 y).bind fun resp z => .ok (byteOf resp 0) z := by
  rw [← h.readByteCmds]
  exact i2cReadByte_buffered ack (by rw [h.qcur, h.par]; have := hroom.bytes; omega)

/-- START whose write fails. -/
theorem start_refused {n : Nat} (hroom : I2cRoom s n) (hacc : t.chan.accepts = false) :
    ∃ u, i2cHolds startPhases t = .raised .transport .write u ∧ s.Underway (calls ++ [.write (startCmds s)]) u := by
  rw [startCmds_eq]
  exact ⟨_, h.condition_refused hroom rfl t.pinnedAll_start hacc, h.written _ _ _⟩

/-- START whose write is answered. -/
theorem start_sent {n : Nat} (hroom : I2cRoom s n) {us : List Turn} (hturn : AnswersNext 0 t.chan.turns us) :
    ∃ u, i2cHolds startPhases t = .ok () u ∧ s.Underway (calls ++ [.write (startCmds s)]) u ∧ u.chan.turns = us := by
  rw [startCmds_eq]
  exact ⟨_, h.condition_sent hroom rfl t.pinnedAll_start hturn.accepts, h.written _ _ _, Chan.write_turns hturn _⟩

/-- A byte written whose write fails. -/
theorem writeByte_refused (hroom : I2cRoom s 13) (v : Byte) (hacc : t.chan.accepts = false) :
    ∃ u, i2cWriteByte v t = .raised .transport .write u
      ∧ s.Underway (calls ++ [.write (Machine.writeByteCmds s v)]) u := by
  refine ⟨_, ?_, h.written false .rel _⟩
  rw [h.writeByte_buffered hroom, flush_append_fails (t.pinned false .rel) _ h.qcur (writeByteCmds_ne_nil s v) hacc,
    Res.raised_bind]

/-- A byte read whose write fails. -/
theorem readByte_refused (hroom : I2cRoom s 16) (ack : Bool) (hacc : t.chan.accepts = false) :
    ∃ u, i2cReadByte ack t = .raised .transport .write u
      ∧ s.Underway (calls ++ [.write (Machine.readByteCmds s ack)]) u := by
  refine ⟨_, ?_, h.written false .rel _⟩
  rw [h.readByte_buffered hroom, flush_append_fails (t.pinned false .rel) _ h.qcur (readByteCmds_ne_nil s ack) hacc,
    Res.raised_bind]

/-- A byte written whose read fails at its first call. -/
theorem writeByte_unread (hroom : I2cRoom s 13) (v : Byte) {k : Nat} {us : List Turn}
    (hturn : AnswersNext 0 t.chan.turns (.fails k :: us)) :
    ∃ u, i2cWriteByte v t = .raised .transport (.read 0) u ∧ s.Underway (calls ++ writeByteCalls s v) u := by
  obtain ⟨d, hread, hcalls⟩ := Chan.readExact_first_fails Nat.one_pos
    (Chan.write_turns hturn (Machine.writeByteCmds s v))
  rw [Chan.write_calls, List.append_assoc] at hcalls
  refine ⟨_, ?_, h.sent false .rel (Machine.writeByteCmds s v) hcalls⟩
  rw [h.writeByte_buffered hroom,
    flush_append (t.pinned false .rel) _ h.qcur (writeByteCmds_ne_nil s v) hturn.accepts, Res.ok_bind,
    readExact_raised 1 _ hread, Res.raised_bind]
  rfl

end State.Underway

/-! ## With a slave on the line (R186, R187; log entry 13) -/

/-- Within a transaction on a channel without loopback that has nothing incoming and only pin-sets still to execute: the
agent's turns `ts` and the slave's levels `din` are to come. -/
structure State.Hears (s : State) (calls : List TCall) (ts : List Turn) (din : List Bool) (t : State) : Prop
    extends State.Underway s calls t where
  turns : t.chan.turns = ts
  pins : ∃ ps, t.chan.tx = phasesCmds s ps
  incoming : t.chan.incoming = []
  loopback : t.chan.eng.loopback = false
  din : t.chan.din = din

theorem State.Hears.begin {s : State} {ts : List Turn} {din : List Bool} (hq : s.qcur = 0) (hturns : s.chan.turns = ts)
    (htx : s.chan.tx = []) (hinc : s.chan.incoming = []) (hloop : s.chan.eng.loopback = false)
    (hdin : s.chan.din = din) : s.Hears [] ts din s :=
  { State.Underway.begin hq with
    turns := hturns, pins := ⟨[], htx⟩, incoming := hinc, loopback := hloop, din := hdin }

/-- A phase held is that many phases. -/
theorem holds_eq_phasesCmds (s : State) (ps : List (Bool × Sda)) :
    (ps.flatMap fun p => holdCmds s p.1 p.2)
      = phasesCmds s (ps.flatMap fun p => List.replicate s.par.i2cRepeat p) := by
  rw [phasesCmds, List.flatMap_assoc]
  simp [List.flatMap_def, holdCmds]

namespace State.Hears

variable {s t : State} {calls : List TCall} {ts us : List Turn} {din : List Bool}

theorem turn {least : Nat} (h : s.Hears calls ts din t) (hturn : AnswersNext least ts us) :
    AnswersNext least t.chan.turns us := h.turns ▸ hturn

/-- A condition joins the pin-sets to be executed. -/
theorem condition {n : Nat} (h : s.Hears calls ts din t) (hroom : I2cRoom s n) {ps : List (Bool × Sda)} {scl : Bool}
    {sda : Sda} (hlen : ps.length = 3) (hlast : t.pinnedAll ps = t.pinned scl sda) (hturn : AnswersNext 0 ts us) :
    ∃ u, i2cHolds ps t = .ok () u
      ∧ s.Hears (calls ++ [.write (ps.flatMap fun p => Machine.holdCmds s p.1 p.2)]) us din u := by
  obtain ⟨d, hwrite, htx, -, hinc⟩ := Chan.write_accepted (h.turn hturn).accepts
    (ps.flatMap fun p => Machine.holdCmds s p.1 p.2)
  obtain ⟨hloop, hdin⟩ := Chan.write_senses (ps.flatMap fun p => Machine.holdCmds s p.1 p.2) t.chan
  obtain ⟨qs, hpins⟩ := h.pins
  refine ⟨_, h.condition_sent hroom hlen hlast (h.turn hturn).accepts,
    { h.written scl sda _ with
      turns := Chan.write_turns (h.turn hturn) _
      pins := ⟨qs ++ ps.flatMap fun p => List.replicate s.par.i2cRepeat p, ?_⟩
      incoming := ?_, loopback := hloop.trans h.loopback, din := hdin.trans h.din }⟩
  · rw [State.sent_chan, State.pinned_chan, hwrite, htx, hpins, holds_eq_phasesCmds, phasesCmds, phasesCmds, phasesCmds,
      List.flatMap_append]
  · rw [State.sent_chan, State.pinned_chan, hwrite, hinc, h.incoming]

theorem start {n : Nat} (h : s.Hears calls ts din t) (hroom : I2cRoom s n) (hturn : AnswersNext 0 ts us) :
    ∃ u, i2cHolds startPhases t = .ok () u ∧ s.Hears (calls ++ [.write (startCmds s)]) us din u :=
  startCmds_eq s ▸ h.condition hroom rfl t.pinnedAll_start hturn

theorem stop {n : Nat} (h : s.Hears calls ts din t) (hroom : I2cRoom s n) (hturn : AnswersNext 0 ts us) :
    ∃ u, i2cHolds stopPhases t = .ok () u ∧ s.Hears (calls ++ [.write (stopCmds s)]) us din u :=
  stopCmds_eq s ▸ h.condition hroom rfl t.pinnedAll_stop hturn

/-- What a write leaves to be executed. -/
theorem write_tx (h : s.Hears calls ts din t) (hturn : AnswersNext 0 ts us) (cmds : List Byte) :
    ∃ ps, (t.chan.write cmds).2.tx = phasesCmds s ps ++ cmds := by
  obtain ⟨d, hwrite, htx, -, -⟩ := Chan.write_accepted (h.turn hturn).accepts cmds
  obtain ⟨ps, hpins⟩ := h.pins
  exact ⟨ps, by rw [hwrite, htx, hpins]⟩

/-- Commands that ask for one response byte, sent and read: the levels they sampled are the slave's next ones. -/
theorem answered {vs : List Turn} {cmds : List Byte} {bits : List Bool} {r : Byte} {d : Chan}
    (h : s.Hears calls ts din t) (hturn : AnswersNext 0 ts us) (hread : AnswersNext 1 us vs)
    (hinput : s.plDir.getLsbD dataInBit = false) (hlen : bits.length ≤ din.length)
    (hruns : (t.chan.write cmds).2.Runs (s.plDir.getLsbD dataInBit = false) [] bits [r] d) :
    ∃ e : Chan, (t.chan.write cmds).2.readExact 1 = (.ok [r], e) ∧ din = bits ++ e.din
      ∧ s.Hears (calls ++ [.write cmds, .read 1]) vs e.din
          { (t.pinned false .rel).sent cmds with chan := e } := by
  obtain ⟨w, hwrite, -, -, hinc⟩ := Chan.write_accepted (h.turn hturn).accepts cmds
  obtain ⟨hloop, hdin⟩ := Chan.write_senses cmds t.chan
  have hsampled := hruns.din hinput (hloop.trans h.loopback) (by rw [hdin, h.din]; exact hlen)
  rw [hdin, h.din] at hsampled
  obtain ⟨e, hanswer, htx, hnone, hturns, hcalls, hloop', hdin'⟩ := hruns.readExact_one (us := vs)
    (by rw [hwrite, hinc, h.incoming]) (by rw [Chan.write_turns (h.turn hturn)]; exact hread)
  rw [Chan.write_calls, List.append_assoc] at hcalls
  refine ⟨e, hanswer, by rw [hdin']; exact hsampled, { h.sent false .rel cmds hcalls with
    turns := hturns, pins := ⟨[], htx⟩, incoming := hnone, loopback := ?_, din := rfl }⟩
  exact hloop'.trans (hloop.trans h.loopback)

/-- The acknowledge of a byte written is the slave's next level, low for an acknowledge (R186). -/
theorem writeByte {vs : List Turn} {b : Bool} (h : s.Hears calls ts (b :: din) t) (hroom : I2cRoom s 13)
    (hinput : s.plDir.getLsbD dataInBit = false) (hturn : AnswersNext 0 ts us) (hread : AnswersNext 1 us vs) (v : Byte) :
    ∃ u, i2cWriteByte v t = .ok (!b) u ∧ s.Hears (calls ++ writeByteCalls s v) vs din u := by
  obtain ⟨ps, htx⟩ := h.write_tx hturn (Machine.writeByteCmds s v)
  obtain ⟨b', stale, d, hruns⟩ := Chan.runs_writeByteCmds htx
  obtain ⟨e, hanswer, hdin, hears⟩ := h.answered hturn hread hinput (by simp) hruns
  obtain ⟨rfl, rfl⟩ : b = b' ∧ din = e.din := by simpa using hdin
  refine ⟨_, ?_, hears⟩
  have hack : ackOf [capture .msb stale [b]] = !b := by
    obtain ⟨-, hbit⟩ := capture_bitsHold .msb stale [b] (by simp)
    exact congrArg (!·) (hbit 0 Nat.one_pos)
  rw [h.writeByte_buffered hroom, ← hack]
  exact flush_readExact_answered (s := t.pinned false .rel) h.qcur (writeByteCmds_ne_nil s v) (h.turn hturn).accepts
    hanswer ackOf

/-- A byte read is the slave's next eight levels, the first at bit 7 (R187). -/
theorem readByte {vs : List Turn} (h : s.Hears calls ts din t) (hroom : I2cRoom s 16)
    (hinput : s.plDir.getLsbD dataInBit = false) (hturn : AnswersNext 0 ts us) (hread : AnswersNext 1 us vs)
    (hlen : 8 ≤ din.length) (ack : Bool) :
    ∃ u, i2cReadByte ack t = .ok (capture .msb 0 (din.take 8)) u
      ∧ s.Hears (calls ++ readByteCalls s ack) vs (din.drop 8) u := by
  obtain ⟨ps, htx⟩ := h.write_tx hturn (Machine.readByteCmds s ack)
  obtain ⟨bits, d, hbits, hruns⟩ := Chan.runs_readByteCmds htx
  obtain ⟨e, hanswer, hdin, hears⟩ := h.answered hturn hread hinput (hbits.trans_le hlen) hruns
  have htake : din.take 8 = bits := by rw [hdin, ← hbits, List.take_left]
  have hdrop : din.drop 8 = e.din := by
    conv_lhs => rw [hdin, ← hbits]
    exact List.drop_left
  rw [htake, hdrop]
  refine ⟨_, ?_, hears⟩
  rw [h.readByte_buffered hroom]
  exact flush_readExact_answered (s := t.pinned false .rel) h.qcur (readByteCmds_ne_nil s ack) (h.turn hturn).accepts
    hanswer (byteOf · 0)

end State.Hears

/-! ## The data of a helper (R188, R189) -/

/-- The acknowledges of data bytes: none after the first level that is high. -/
theorem leadingAcks_cons (v : Byte) (data : List Byte) (b : Bool) (acks : List Bool) :
    leadingAcks (v :: data) (b :: acks) = if b then 0 else leadingAcks data acks + 1 := by
  cases b <;> simp [leadingAcks]

/-- The bytes that a slave's levels are, eight to a byte, the first at bit 7 (R56). -/
def heardBytes : Nat → List Bool → List Byte
  | 0, _ => []
  | n + 1, bits => capture .msb 0 (bits.take 8) :: heardBytes n (bits.drop 8)

@[simp] theorem heardBytes_length (n : Nat) (bits : List Bool) : (heardBytes n bits).length = n := by
  induction n generalizing bits with
  | zero => rfl
  | succ n ih => rw [heardBytes, List.length_cons, ih]

theorem heardBytes_bit {n : Nat} {bits : List Bool} (hlen : 8 * n ≤ bits.length) {j b : Nat} (hj : j < n) (hb : b < 8) :
    (byteOf (heardBytes n bits) j).getLsbD (7 - b) = bits.getD (8 * j + b) false := by
  induction n generalizing bits j with
  | zero => exact absurd hj (Nat.not_lt_zero j)
  | succ n ih =>
    cases j with
    | zero =>
      have htake : (bits.take 8).length = 8 := List.length_take_of_le (by omega)
      obtain ⟨-, hbit⟩ := capture_bitsHold .msb 0 (bits.take 8) htake.le
      rw [htake] at hbit
      refine (hbit b hb).trans ?_
      simp [List.getD_eq_getElem?_getD, List.getElem?_take_of_lt hb]
    | succ j =>
      have hrest := ih (bits := bits.drop 8) (by rw [List.length_drop]; omega) (j := j) (by omega)
      refine hrest.trans ?_
      rw [List.getD_eq_getElem?_getD, List.getElem?_drop, ← List.getD_eq_getElem?_getD,
        show 8 + (8 * j + b) = 8 * (j + 1) + b by omega]

namespace State.Hears

variable {s t : State} {calls : List TCall} {din : List Bool}

/-- Data bytes are written up to and with the first that is not acknowledged. -/
theorem writeMany {data : List Byte} (k : Nat) (h : s.Hears calls [] din t) (hroom : I2cRoom s 13)
    (hinput : s.plDir.getLsbD dataInBit = false) (hlen : data.length ≤ din.length) :
    ∃ u later, i2cWriteMany data k t = .ok (k + leadingAcks data din) u
      ∧ s.Hears (calls ++ (data.take (leadingAcks data din + 1)).flatMap (writeByteCalls s)) [] later u := by
  induction data generalizing k calls din t with
  | nil => exact ⟨t, din, by simp [i2cWriteMany, leadingAcks], by simpa using h⟩
  | cons v data ih =>
    cases din with
    | nil => simp at hlen
    | cons b din =>
      obtain ⟨u, hbyte, hu⟩ := h.writeByte hroom hinput (.last 0) (.last 1) v
      rw [i2cWriteMany, hbyte, Res.ok_bind, leadingAcks_cons]
      cases b with
      | true => exact ⟨u, din, rfl, by simpa using hu⟩
      | false =>
        obtain ⟨w, later, hrest, hw⟩ := ih (k + 1) hu (by simpa using hlen)
        refine ⟨w, later, hrest.trans ?_, ?_⟩
        · rw [if_neg Bool.false_ne_true, Nat.add_right_comm, ← Nat.add_assoc]
        · rw [if_neg Bool.false_ne_true, List.take_succ_cons, List.flatMap_cons, ← List.append_assoc]
          exact hw


/-- Bytes are read one after the other, every one acknowledged but the last. -/
theorem readMany {n : Nat} (acc : List Byte) (h : s.Hears calls [] din t) (hroom : I2cRoom s 16)
    (hinput : s.plDir.getLsbD dataInBit = false) (hlen : 8 * n ≤ din.length) :
    ∃ u later, i2cReadMany n acc t = .ok (acc ++ heardBytes n din) u
      ∧ s.Hears (calls ++ (List.range n).flatMap fun j => readByteCalls s (decide (j + 1 < n))) [] later u := by
  induction n generalizing acc calls din t with
  | zero => exact ⟨t, din, by simp [i2cReadMany, heardBytes], by simpa using h⟩
  | succ n ih =>
    obtain ⟨u, hbyte, hu⟩ := h.readByte hroom hinput (.last 0) (.last 1) (by omega) (decide (0 < n))
    obtain ⟨w, later, hrest, hw⟩ := ih (acc ++ [capture .msb 0 (din.take 8)]) hu (by rw [List.length_drop]; omega)
    refine ⟨w, later, ?_, ?_⟩
    · rw [i2cReadMany, hbyte, Res.ok_bind, hrest, heardBytes, List.append_assoc, List.singleton_append]
    · rw [List.range_succ_eq_map, List.flatMap_cons, List.flatMap_map]
      simpa [List.append_assoc] using hw

end State.Hears

/-! ## The helpers (R188, R189) -/

theorem addrByte_eq_helperAddress (addr : Byte) (read : Bool) : addrByte addr read = helperAddress addr read := by
  cases read <;> revert addr <;> decide

/-- The part both helpers begin with: START, then the address byte and its acknowledge. -/
def i2cAddress (addr : Byte) (read : Bool) (s : State) : Res Bool :=
  (i2cHolds startPhases s).bind fun _ t => i2cWriteByte (addrByte addr read) t

theorem i2cXread_eq (addr : Byte) (count : Nat) (s : State) :
    i2cXread addr count s = (i2cAddress addr true s).bind fun acked u =>
      if acked then
        (i2cReadMany count [] u).bind fun data v => (i2cHolds stopPhases v).bind fun _ w => .ok (some data) w
      else (i2cHolds stopPhases u).bind fun _ v => .ok none v := by
  rw [i2cXread, i2cAddress, Res.bind_assoc]

theorem i2cXwrite_eq (addr : Byte) (data : List Byte) (s : State) :
    i2cXwrite addr data s = (i2cAddress addr false s).bind fun acked u =>
      if acked then
        (i2cWriteMany data 0 u).bind fun k v => (i2cHolds stopPhases v).bind fun _ w => .ok (some k) w
      else (i2cHolds stopPhases u).bind fun _ v => .ok none v := by
  rw [i2cXwrite, i2cAddress, Res.bind_assoc]

theorem needAddr_eq {s : State} (hopen : s.ch = .opened) (hproto : s.proto = .i2c) (addr : Byte) :
    needAddr addr s = sized .sizes (atMost addr.toNat 0x7F) := by
  rw [needAddr, needProto_eq_none.2 ⟨hopen, hproto⟩, orElse_none]

theorem needAddr_passes {s : State} (hopen : s.ch = .opened) (hproto : s.proto = .i2c) {addr : Byte}
    (haddr : addr.toNat ≤ 0x7F) : needAddr addr s = none := by
  rw [needAddr_eq hopen hproto, atMost_eq_none.2 haddr]
  rfl

namespace State.Hears

variable {s : State} {calls : List TCall} {ts us vs ws : List Turn} {b : Bool} {din : List Bool}

/-- The address byte on the bus, with its acknowledge from the slave. -/
theorem address (h : s.Hears [] ts (b :: din) s) (hroom : I2cRoom s 13) (hinput : s.plDir.getLsbD dataInBit = false)
    (hstart : AnswersNext 0 ts us) (hbyte : AnswersNext 0 us vs) (hread : AnswersNext 1 vs ws) (addr : Byte)
    (read : Bool) :
    ∃ u, i2cAddress addr read s = .ok (!b) u ∧ s.Hears (helperHead s addr read) ws din u := by
  obtain ⟨t, ht, hears⟩ := h.start hroom hstart
  obtain ⟨u, hu, hears'⟩ := hears.writeByte hroom hinput hbyte hread (addrByte addr read)
  rw [addrByte_eq_helperAddress] at hears'
  exact ⟨u, by rw [i2cAddress, ht, Res.ok_bind, hu], hears'⟩

/-- STOP, and then the value of the helper. -/
theorem finish {α : Type} {t : State} {n : Nat} (h : s.Hears calls [] din t) (hroom : I2cRoom s n) (a : α) :
    ∃ u, ((i2cHolds stopPhases t).bind fun _ v => .ok a v) = .ok a u
      ∧ s.Underway (calls ++ [.write (stopCmds s)]) u := by
  obtain ⟨u, hstop, hu⟩ := h.stop hroom (.last 0)
  exact ⟨u, by rw [hstop, Res.ok_bind], hu.toUnderway⟩

end State.Hears

/-- A transaction that completes: the answer is given, and nothing else of the block changed but the queue and the
shadows. -/
theorem State.Underway.answered {s u : State} {calls : List TCall} (h : s.Underway calls u) (hq : s.qcur = 0)
    (a : Answer) {t : State} (ht : t = u.answering a) :
    t.flog = s.flog ∧ t.qcur = 0 ∧ t.chan.calls = s.chan.calls ++ calls
      ∧ t = { s with qbuf := t.qbuf, chan := t.chan, plVal := t.plVal, plDir := t.plDir, answer := t.answer } := by
  have hmade := h.made
  obtain ⟨q, c, v, d, rfl⟩ := h.frame
  subst ht
  exact ⟨rfl, rfl, hmade, by simp [State.answering, hq]⟩

/-- Settles O44: the walk through START, the address, the data and STOP. -/
theorem i2cXwriteCountsAcknowledges : Obligations.I2cXwriteCountsAcknowledges := by
  intro s addr data a acks hopen hproto haddr hq hcap hrep hholds hquiet hloop hinput hdin hlen
  obtain ⟨hturns, htx, hinc⟩ := hquiet
  have hroom : I2cRoom s 13 := ⟨hrep, hholds, hcap⟩
  have hpre := needAddr_passes hopen hproto haddr
  obtain ⟨u, haddress, hu⟩ := (State.Hears.begin hq hturns htx hinc hloop hdin).address hroom hinput (.last 0) (.last 0)
    (.last 1) addr false
  cases a with
  | true =>
    obtain ⟨v, hstop, hv⟩ := hu.finish hroom (none : Option Nat)
    have hbody : i2cXwrite addr data s = .ok none v := by
      rw [i2cXwrite_eq, haddress, Res.ok_bind]
      exact hstop
    obtain ⟨hflog, hcur, hcalls, hframe⟩ := hv.answered hq (.optNat none) rfl
    refine ⟨_, runOp_ok .i2cXwrite _ _ .optNat s hpre hbody, hflog, hcur, rfl, ?_, hframe⟩
    simpa using hcalls
  | false =>
    obtain ⟨v, later, hdata, hv⟩ := hu.writeMany 0 hroom hinput hlen
    obtain ⟨w, hstop, hw⟩ := hv.finish hroom (some (0 + leadingAcks data acks))
    have hbody : i2cXwrite addr data s = .ok (some (0 + leadingAcks data acks)) w := by
      rw [i2cXwrite_eq, haddress, Res.ok_bind, Bool.not_false, if_pos rfl, hdata, Res.ok_bind, hstop]
    rw [Nat.zero_add] at hbody
    obtain ⟨hflog, hcur, hcalls, hframe⟩ := hw.answered hq (.optNat (some (leadingAcks data acks))) rfl
    refine ⟨_, runOp_ok .i2cXwrite _ _ .optNat s hpre hbody, hflog, hcur, rfl, ?_, hframe⟩
    simpa using hcalls

/-- Settles O45: the walk through START, the address, the bytes read and STOP. -/
theorem i2cXreadReturnsTheSlavesBits : Obligations.I2cXreadReturnsTheSlavesBits := by
  intro s addr count a bits hopen hproto haddr hq hcap hrep hholds hquiet hloop hinput hdin hlen
  obtain ⟨hturns, htx, hinc⟩ := hquiet
  have hroom : I2cRoom s 16 := ⟨hrep, hholds, hcap⟩
  have hpre := needAddr_passes hopen hproto haddr
  obtain ⟨u, haddress, hu⟩ := (State.Hears.begin hq hturns htx hinc hloop hdin).address
    ⟨hrep, hholds, by omega⟩ hinput (.last 0) (.last 0) (.last 1) addr true
  cases a with
  | true =>
    obtain ⟨v, hstop, hv⟩ := hu.finish hroom (none : Option (List Byte))
    have hbody : i2cXread addr count s = .ok none v := by
      rw [i2cXread_eq, haddress, Res.ok_bind]
      exact hstop
    obtain ⟨hflog, hcur, hcalls, hframe⟩ := hv.answered hq (.optBytes none) rfl
    refine ⟨_, runOp_ok .i2cXread _ _ .optBytes s hpre hbody, hflog, hcur, fun _ => rfl, nofun, ?_, hframe⟩
    simpa using hcalls
  | false =>
    obtain ⟨v, later, hdata, hv⟩ := hu.readMany [] hroom hinput hlen
    obtain ⟨w, hstop, hw⟩ := hv.finish hroom (some (heardBytes count bits))
    have hbody : i2cXread addr count s = .ok (some (heardBytes count bits)) w := by
      rw [i2cXread_eq, haddress, Res.ok_bind, Bool.not_false, if_pos rfl, hdata, Res.ok_bind, List.nil_append, hstop]
    obtain ⟨hflog, hcur, hcalls, hframe⟩ := hw.answered hq (.optBytes (some (heardBytes count bits))) rfl
    refine ⟨_, runOp_ok .i2cXread _ _ .optBytes s hpre hbody, hflog, hcur, nofun, fun _ => ?_, ?_, hframe⟩
    · exact ⟨_, rfl, heardBytes_length count bits, fun j hj b hb => heardBytes_bit hlen hj hb⟩
    · simpa using hcalls

/-! ## Where a helper ends without a STOP (R300) -/

/-- The two helpers, with what differs between them. -/
inductive I2cHelper
  | read (count : Nat)
  | write (data : List Byte)

/-- The request of a helper. -/
def I2cHelper.instr (addr : Byte) : I2cHelper → Instr
  | .read count => .i2cXread addr count
  | .write data => .i2cXwrite addr data

/-- The operation a helper's fault names. -/
def I2cHelper.op : I2cHelper → HostOp
  | .read _ => .i2cXread
  | .write _ => .i2cXwrite

/-- The direction bit of a helper's address byte. -/
def I2cHelper.reads : I2cHelper → Bool
  | .read _ => true
  | .write _ => false

/-- A body that raises a transport fault within a transaction abandons it. -/
theorem State.Underway.abandons {α : Type} {s u : State} {calls : List TCall} (h : s.Underway calls u)
    (hproto : s.proto = .i2c) {i : Instr} {op : HostOp} {pre : State → Option (FaultCode × Detail)}
    {body : State → Res α} {give : α → Answer} {info : Detail} (hexec : exec i s = runOp op pre body give s)
    (hop : opIsOpen op = false) (hpre : pre s = none) (hbody : body s = .raised .transport info u) :
    s.Abandons i op info calls := by
  have hmade := h.made
  obtain ⟨q, c, v, d, rfl⟩ := h.frame
  refine ⟨_, hexec.trans (runOp_raised op pre body give s hpre hbody), ?_, ?_⟩
  · rw [hop, faultLate_transport]
    simp [hproto]
  · rw [hop, faultLate_transport]
    exact hmade

/-- A fault in START or at the address ends either helper. -/
theorem I2cHelper.abandons (k : I2cHelper) {s u : State} {addr : Byte} {calls : List TCall} {info : Detail}
    (hproto : s.proto = .i2c) (hpre : needAddr addr s = none)
    (haddress : i2cAddress addr k.reads s = .raised .transport info u) (hu : s.Underway calls u) :
    s.Abandons (k.instr addr) k.op info calls := by
  cases k with
  | read count =>
    exact hu.abandons (body := i2cXread addr count) (give := .optBytes) hproto rfl rfl hpre
      (by rw [i2cXread_eq, show i2cAddress addr true s = _ from haddress, Res.raised_bind])
  | write data =>
    exact hu.abandons (body := i2cXwrite addr data) (give := .optNat) hproto rfl rfl hpre
      (by rw [i2cXwrite_eq, show i2cAddress addr false s = _ from haddress, Res.raised_bind])

section Address

variable {s : State} {addr : Byte} {read : Bool} {k : Nat} {ts : List Turn} (hq : s.qcur = 0) (hroom : I2cRoom s 13)
include hq hroom

theorem i2cAddress_start_refused (hturns : s.chan.turns = .fails k :: ts) :
    ∃ u, i2cAddress addr read s = .raised .transport .write u ∧ s.Underway [.write (startCmds s)] u := by
  obtain ⟨u, hstart, hu⟩ := (State.Underway.begin hq).start_refused hroom (Chan.accepts_eq_false_iff.2 ⟨k, ts, hturns⟩)
  exact ⟨u, by rw [i2cAddress, hstart, Res.raised_bind], hu⟩

theorem i2cAddress_byte_refused {g : Nat} (hturns : s.chan.turns = .answers g :: .fails k :: ts) :
    ∃ u, i2cAddress addr read s = .raised .transport .write u
      ∧ s.Underway [.write (startCmds s), .write (writeByteCmds s (helperAddress addr read))] u := by
  obtain ⟨t, hstart, ht, htturns⟩ := (State.Underway.begin hq).start_sent hroom
    (hturns ▸ AnswersNext.turn (Nat.zero_le g) _)
  obtain ⟨u, hbyte, hu⟩ := ht.writeByte_refused hroom (addrByte addr read)
    (Chan.accepts_eq_false_iff.2 ⟨k, ts, htturns⟩)
  rw [addrByte_eq_helperAddress] at hu
  exact ⟨u, by rw [i2cAddress, hstart, Res.ok_bind, hbyte], hu⟩

theorem i2cAddress_byte_unread {g h : Nat} (hturns : s.chan.turns = .answers g :: .answers h :: .fails k :: ts) :
    ∃ u, i2cAddress addr read s = .raised .transport (.read 0) u ∧ s.Underway (helperHead s addr read) u := by
  obtain ⟨t, hstart, ht, htturns⟩ := (State.Underway.begin hq).start_sent hroom
    (hturns ▸ AnswersNext.turn (Nat.zero_le g) _)
  obtain ⟨u, hbyte, hu⟩ := ht.writeByte_unread hroom (addrByte addr read)
    (htturns ▸ AnswersNext.turn (Nat.zero_le h) _)
  rw [addrByte_eq_helperAddress] at hu
  exact ⟨u, by rw [i2cAddress, hstart, Res.ok_bind, hbyte], hu⟩

end Address

/-- The slave acknowledged the address, and the write of the first data byte fails: of a byte written, or of one read. -/
theorem i2cXwrite_data_refused {s u : State} {addr : Byte} {calls : List TCall} {k : Nat} {ts : List Turn}
    (haddress : i2cAddress addr false s = .ok true u) (hu : s.Underway calls u) (hroom : I2cRoom s 13)
    (hturns : u.chan.turns = .fails k :: ts) (b : Byte) (data : List Byte) :
    ∃ v, i2cXwrite addr (b :: data) s = .raised .transport .write v
      ∧ s.Underway (calls ++ [.write (writeByteCmds s b)]) v := by
  obtain ⟨v, hbyte, hv⟩ := hu.writeByte_refused hroom b (Chan.accepts_eq_false_iff.2 ⟨k, ts, hturns⟩)
  exact ⟨v, by rw [i2cXwrite_eq, haddress, Res.ok_bind, if_pos rfl, i2cWriteMany, hbyte, Res.raised_bind,
    Res.raised_bind], hv⟩

theorem i2cXread_data_refused {s u : State} {addr : Byte} {calls : List TCall} {k : Nat} {ts : List Turn}
    (haddress : i2cAddress addr true s = .ok true u) (hu : s.Underway calls u) (hroom : I2cRoom s 16)
    (hturns : u.chan.turns = .fails k :: ts) (count : Nat) :
    ∃ v, i2cXread addr (count + 1) s = .raised .transport .write v
      ∧ s.Underway (calls ++ [.write (readByteCmds s (decide (0 < count)))]) v := by
  obtain ⟨v, hbyte, hv⟩ := hu.readByte_refused hroom (decide (0 < count))
    (Chan.accepts_eq_false_iff.2 ⟨k, ts, hturns⟩)
  exact ⟨v, by rw [i2cXread_eq, haddress, Res.ok_bind, if_pos rfl, i2cReadMany, hbyte, Res.raised_bind,
    Res.raised_bind], hv⟩

/-- Settles O46: the address check, the three faults up to the acknowledge, and the fault of the first data byte. -/
theorem i2cHelpersStopAtAFault : Obligations.I2cHelpersStopAtAFault := by
  intro s addr hopen hproto
  refine ⟨fun haddr count data => ?_, fun haddr hq hcap hrep hholds g h j k ts => ?_⟩
  · have hpre : needAddr addr s = some (.sizing, .sizes addr.toNat 0x7F) := by
      rw [needAddr_eq hopen hproto, atMost, if_pos haddr]
      rfl
    exact ⟨runOp_early .i2cXread _ _ _ s hpre, runOp_early .i2cXwrite _ _ _ s hpre⟩
  have hroom : I2cRoom s 16 := ⟨hrep, hholds, hcap⟩
  have hroom' : I2cRoom s 13 := ⟨hrep, hholds, by omega⟩
  have hpre := needAddr_passes hopen hproto haddr
  refine ⟨fun count data x hx => ?_, fun bits hturns htx hinc hloop hinput hdin => ?_⟩
  · obtain ⟨y, rfl⟩ : ∃ y : I2cHelper, x = (y.instr addr, y.op, y.reads) := by
      simp only [List.mem_cons, List.not_mem_nil, or_false] at hx
      obtain rfl | rfl := hx
      · exact ⟨.read count, rfl⟩
      · exact ⟨.write data, rfl⟩
    refine ⟨fun hturns => ?_, fun hturns => ?_, fun hturns => ?_⟩
    · obtain ⟨u, haddress, hu⟩ := i2cAddress_start_refused hq hroom' hturns
      exact y.abandons hproto hpre haddress hu
    · obtain ⟨u, haddress, hu⟩ := i2cAddress_byte_refused hq hroom' hturns
      exact y.abandons hproto hpre haddress hu
    · obtain ⟨u, haddress, hu⟩ := i2cAddress_byte_unread hq hroom' hturns
      exact y.abandons hproto hpre haddress hu
  · have hacked := (State.Hears.begin hq hturns htx hinc hloop hdin).address hroom' hinput (.turn (Nat.zero_le g) _)
      (.turn (Nat.zero_le h) _) (.turn (Nat.succ_pos j) _) addr
    refine ⟨fun b data => ?_, fun count => ?_⟩
    · obtain ⟨u, haddress, hu⟩ := hacked false
      obtain ⟨v, hbody, hv⟩ := i2cXwrite_data_refused haddress hu.toUnderway hroom' hu.turns b data
      exact hv.abandons hproto rfl rfl hpre hbody
    · obtain ⟨u, haddress, hu⟩ := hacked true
      obtain ⟨v, hbody, hv⟩ := i2cXread_data_refused haddress hu.toUnderway hroom hu.turns count
      exact hv.abandons hproto rfl rfl hpre hbody

end Sys2Proof.Machine

/-! PROOF. The transport calls of an open and of CLOSE, and the handshake (spec/46_open_sync_close.md R205, R206, R212;
20_memory.md R60; 60_exceptions.md R292, R296; 93_implementation_defined.md X13). Calls on a quiet channel leave it quiet:
`Chan.Served` is what they did. The handshake is the two writes of `hail`, a poll and a read of two bytes, and
`mpsseSync_last` is what it comes to past the agent's last turn, whatever was incoming. -/

namespace Sys2Proof.Machine

/-! ## Calls other than `write` and `read` (R60) -/

theorem Chan.accepts_of_last {c : Chan} (h : c.turns = []) : c.accepts = true := by simp [Chan.accepts, h]

/-- A call that the agent answers takes its next turn, after a delivery. -/
theorem Chan.ask_accepted {c : Chan} (h : c.accepts = true) (t : TCall) :
    ∃ n, c.ask t = (true, (Chan.deliver n { c with turns := c.turns.tail }).called t) := by
  rcases hturns : c.turns with _ | ⟨g | k, ts⟩
  · have hsame : { c with turns := [] } = c := by rw [← hturns]
    exact ⟨(c.inFlight ++ c.eng.gathered).length, by rw [List.tail_nil, hsame, Chan.ask_last t c hturns]; rfl⟩
  · exact ⟨g, Chan.ask_answers hturns t⟩
  · simp [Chan.accepts, hturns] at h

/-- A call that fails takes the next turn and does nothing else. -/
theorem Chan.ask_refused {c : Chan} (h : c.accepts = false) (t : TCall) :
    c.ask t = (false, { c with turns := c.turns.tail }.called t) := by
  obtain ⟨k, ts, hturns⟩ := Chan.accepts_eq_false_iff.1 h
  rw [Chan.ask_fails hturns, hturns, List.tail_cons]

section Setup

variable {c : Chan} (htx : c.tx = []) (t : TCall) (act : Chan → Chan)
include htx

theorem Chan.setup_accepted (h : c.accepts = true) :
    ∃ n, c.setup t act = (true, act ((Chan.deliver n { c with turns := c.turns.tail }).called t)) := by
  obtain ⟨n, hask⟩ := Chan.ask_accepted h t
  exact ⟨n, by rw [Chan.setup, Chan.settle_nil htx, hask]; rfl⟩

theorem Chan.setup_refused (h : c.accepts = false) :
    c.setup t act = (false, { c with turns := c.turns.tail }.called t) := by
  rw [Chan.setup, Chan.settle_nil htx, Chan.ask_refused h]
  rfl

end Setup

/-! ## CLOSE (R212) -/

/-- The registers that CLOSE leaves, with the channel its call left. -/
def State.shut (s : State) (d : Chan) : State :=
  { s with qcur := 0, chan := d, ch := .closed, proto := .none, tapKnown := false }

theorem closeChannel_ok {s : State} {d : Chan} (h : s.chan.setBitMode 0 .reset = (true, d)) :
    closeChannel s = .ok () (s.shut d) := by
  rw [closeChannel, h]
  rfl

theorem closeChannel_raised {s : State} {d : Chan} (h : s.chan.setBitMode 0 .reset = (false, d)) :
    closeChannel s = .raised .transport .close (s.shut d) := by
  rw [closeChannel, h]
  rfl

/-- Settles O53: the one call is answered or fails, and the channel is closed either way. -/
theorem closeAlwaysCloses : Obligations.CloseAlwaysCloses := by
  intro s hch htx
  have hpre : needNotClosed s = none := by simp [needNotClosed, hch]
  refine ⟨fun hacc => ?_, fun hacc => ?_⟩
  · obtain ⟨n, hcall⟩ := Chan.setup_accepted htx (.setBitMode 0 .reset) (Chan.enterMode 0 .reset) hacc
    exact ⟨_, runOp_ok .close needNotClosed closeChannel _ s hpre (closeChannel_ok hcall), rfl, rfl, rfl, rfl, rfl, rfl,
      rfl⟩
  · have hcall := Chan.setup_refused htx (.setBitMode 0 .reset) (Chan.enterMode 0 .reset) hacc
    exact ⟨_, runOp_raised .close needNotClosed closeChannel _ s hpre (closeChannel_raised hcall), rfl, rfl, rfl, rfl⟩

/-! ## A quiet channel serves its calls (R60, R206) -/

theorem Chan.Quiet.settle {c : Chan} (h : c.Quiet) : c.settle = c := Chan.settle_nil h.2.1

theorem Chan.Quiet.called {c : Chan} (h : c.Quiet) (t : TCall) : (c.called t).Quiet := h

/-- With nothing incoming a delivery changes nothing. -/
theorem Chan.deliverAll_of_incoming {c : Chan} (h : c.incoming = []) : c.deliverAll = c := by
  rcases c with ⟨sup, marker, mode, usbIn, usbOut, rd, wr, lat, tx, rx, fl, ⟨d5, dv, p3, ad, lb, ol, oh, lv, ld, hv, hd, g⟩⟩
  simp only [Chan.incoming, List.append_eq_nil_iff] at h
  obtain ⟨⟨rfl, rfl⟩, rfl⟩ := h
  rfl

theorem Chan.Quiet.ask {c : Chan} (h : c.Quiet) (t : TCall) : c.ask t = (true, c.called t) := by
  obtain ⟨hturns, -, hinc⟩ := h
  rw [Chan.ask_last t c hturns, Chan.deliverAll_of_incoming hinc]

/-- Calls that a quiet channel answered: it is quiet again, with the same chip, and its engine is `e`. -/
structure Chan.Served (c : Chan) (calls : List TCall) (e : Engine) (d : Chan) : Prop where
  quiet : d.Quiet
  sup : d.sup = c.sup
  marker : d.marker = c.marker
  calls : d.calls = c.calls ++ calls
  eng : d.eng = e

theorem Chan.Served.trans {c d f : Chan} {xs ys : List TCall} {e e' : Engine} (h : c.Served xs e d)
    (k : d.Served ys e' f) : c.Served (xs ++ ys) e' f :=
  ⟨k.quiet, k.sup.trans h.sup, k.marker.trans h.marker, by rw [k.calls, h.calls, List.append_assoc], k.eng⟩

/-- A setup call on a quiet channel, from what its effect does. -/
theorem Chan.Quiet.setup {c : Chan} (h : c.Quiet) (t : TCall) {act : Chan → Chan} (g : Engine → Engine)
    (hact : ∀ d : Chan, d.Quiet → d.Served [] (g d.eng) (act d)) :
    ∃ d, c.setup t act = (true, d) ∧ c.Served [t] (g c.eng) d := by
  have hcall : c.Served [t] c.eng (c.called t) := ⟨h.called t, rfl, rfl, rfl, rfl⟩
  exact ⟨_, by rw [Chan.setup, h.settle, h.ask]; rfl, hcall.trans (hact _ (h.called t))⟩

/-- A mode reset makes every pin an input (R212). -/
theorem Chan.Quiet.setReset {c : Chan} (h : c.Quiet) : ∃ d, c.setBitMode 0 .reset = (true, d)
    ∧ c.Served [.setBitMode 0 .reset] { c.eng with lowDir := 0, highDir := 0 } d :=
  h.setup _ (fun e => { e with lowDir := 0, highDir := 0 }) fun _ hd =>
    ⟨hd, rfl, rfl, (List.append_nil _).symm, rfl⟩

/-- The entry into MPSSE mode makes the low pins inputs (R206). -/
theorem Chan.Quiet.setMpsse {c : Chan} (h : c.Quiet) : ∃ d, c.setBitMode 0 .mpsse = (true, d)
    ∧ c.Served [.setBitMode 0 .mpsse] { c.eng with lowDir := 0 } d :=
  h.setup _ (fun e => { e with lowDir := 0 }) fun d hd => by
    obtain ⟨t, n, high, henter, -, hhigh⟩ := d.enterMode_spec 0 .mpsse
    rw [henter, hhigh rfl]
    exact ⟨hd, rfl, rfl, (List.append_nil _).symm, rfl⟩

theorem Chan.Quiet.setUsbSizes {c : Chan} (h : c.Quiet) (i o : Size32) :
    ∃ d, c.setUsbSizes i o = (true, d) ∧ c.Served [.setUsbSizes i o] c.eng d :=
  h.setup _ id fun _ hd => ⟨hd, rfl, rfl, (List.append_nil _).symm, rfl⟩

theorem Chan.Quiet.setTimeouts {c : Chan} (h : c.Quiet) (r w : Nat) :
    ∃ d, c.setTimeouts r w = (true, d) ∧ c.Served [.setTimeouts r w] c.eng d :=
  h.setup _ id fun _ hd => ⟨hd, rfl, rfl, (List.append_nil _).symm, rfl⟩

theorem Chan.Quiet.setLatency {c : Chan} (h : c.Quiet) (ms : Byte) :
    ∃ d, c.setLatency ms = (true, d) ∧ c.Served [.setLatency ms] c.eng d :=
  h.setup _ id fun _ hd => ⟨hd, rfl, rfl, (List.append_nil _).symm, rfl⟩

theorem setupCall_ok {f : Chan → Bool × Chan} {s : State} {d : Chan} (info : Detail) (h : f s.chan = (true, d)) :
    setupCall f info s = .ok () (s.withChan d) := by simp [setupCall, h]

theorem setupCall_withChan {f : Chan → Bool × Chan} {c d : Chan} (s : State) (info : Detail) (h : f c = (true, d)) :
    setupCall f info (s.withChan c) = .ok () (s.withChan d) := setupCall_ok info h

theorem setupCall_raised {f : Chan → Bool × Chan} {s : State} {d : Chan} (info : Detail)
    (h : f s.chan = (false, d)) : setupCall f info s = .raised .transport info (s.withChan d) := by simp [setupCall, h]

/-- The setup calls of an open on a quiet channel: every pin is an input (R206). -/
theorem openSetup_quiet {s : State} (h : s.chan.Quiet) :
    ∃ d, openSetup s = .ok () (s.withChan d) ∧ s.chan.Served ((setupCalls s.par).drop 3)
      { s.chan.eng with lowDir := 0, highDir := 0 } d := by
  obtain ⟨c₁, h₁, k₁⟩ := h.setReset
  obtain ⟨c₂, h₂, k₂⟩ := k₁.quiet.setUsbSizes s.par.usbInSz s.par.usbOutSz
  obtain ⟨c₃, h₃, k₃⟩ := k₂.quiet.setTimeouts s.par.rdTimeoutMs s.par.wrTimeoutMs
  obtain ⟨c₄, h₄, k₄⟩ := k₃.quiet.setLatency s.par.latencyMs
  obtain ⟨c₅, h₅, k₅⟩ := k₄.quiet.setMpsse
  have hserved := (((k₁.trans k₂).trans k₃).trans k₄).trans k₅
  rw [k₄.eng, k₃.eng, k₂.eng, k₁.eng] at hserved
  refine ⟨c₅, ?_, hserved⟩
  rw [openSetup, setupCall_ok _ h₁, Res.ok_bind, setupCall_withChan s _ h₂, Res.ok_bind, setupCall_withChan s _ h₃,
    Res.ok_bind, setupCall_withChan s _ h₄, Res.ok_bind, setupCall_withChan s _ h₅]

end Sys2Proof.Machine

/-! PROOF. The handshake (spec/46_open_sync_close.md R205; 30_encoding.md R94; 60_exceptions.md R292, R296;
93_implementation_defined.md X13). It is the writes of `hail`, a poll and a read of two bytes. Past the agent's last turn
`mpsseSync_last` is what it comes to, whatever was incoming; an agent that hands nothing over is polled to the bound. -/

namespace Sys2Proof.Machine

/-! ## The writes of the handshake (R205) -/

/-- The writes of the handshake: the baseline on an enhanced chip, then the opcode no chip knows. -/
def hail (enh : Bool) : List (List Byte) := (if enh then [[0x8A, 0x97, 0x8D]] else []) ++ [[0xAA]]

/-- The state after the baseline, where it is sent. -/
def State.baselined (s : State) : State := if s.cap.enh then s.sent [0x8A, 0x97, 0x8D] else s

/-- The state after both writes. -/
def State.hailed (s : State) : State := s.baselined.sent [0xAA]

theorem baseline_ok {s : State} (hroom : s.room 3 = true) (hacc : s.cap.enh = true → s.chan.accepts = true) :
    baseline s = .ok () s.baselined := by
  obtain ⟨hq, hfit⟩ := State.room_iff.1 hroom
  cases henh : s.cap.enh with
  | false => simp [baseline, State.baselined, henh]
  | true =>
    rw [baseline, State.baselined, if_pos henh, if_pos henh]
    exact emitAll_flush _ s hq (by decide) hfit (hacc henh)

@[simp] theorem State.baselined_par (s : State) : s.baselined.par = s.par := by
  unfold State.baselined
  split <;> rfl

theorem State.baselined_qcur {s : State} (h : s.qcur = 0) : s.baselined.qcur = 0 := by
  unfold State.baselined
  split
  · rfl
  · exact h

/-- The handshake hails, then polls and reads. -/
theorem mpsseSync_hailed {s : State} (hroom : s.room 3 = true) (hbase : s.cap.enh = true → s.chan.accepts = true)
    (hmark : s.baselined.chan.accepts = true) :
    mpsseSync s = (poll s.hailed).bind fun _ w => verify w := by
  obtain ⟨hq, hfit⟩ := State.room_iff.1 hroom
  have hempty := State.baselined_qcur hq
  have hemit : emit [Config.opmap.bogus] s.baselined = .ok () (s.baselined.append [0xAA]) :=
    emit_ok _ _ (by rw [hempty, State.baselined_par]; exact Nat.le_trans (by decide) hfit)
  rw [mpsseSync, baseline_ok hroom hbase, Res.ok_bind, hemit, Res.ok_bind,
    flush_append _ _ hempty (List.cons_ne_nil _ _) hmark, Res.ok_bind]
  rfl

/-- Only the queue and the channel change. -/
theorem State.hailed_eq (s : State) : s.hailed = { s with qbuf := s.hailed.qbuf, qcur := 0, chan := s.hailed.chan } := by
  cases henh : s.cap.enh <;> simp [State.hailed, State.baselined, henh, State.sent]

/-- Past the agent's last turn the writes wait in the stream. -/
theorem State.hailed_chan_last {s : State} (h : s.chan.turns = []) :
    s.hailed.chan = { s.chan with
      tx := s.chan.tx ++ (hail s.cap.enh).flatten
      calls := s.chan.calls ++ (hail s.cap.enh).map .write } := by
  cases henh : s.cap.enh <;> simp [State.hailed, State.baselined, henh, hail, Chan.write_last, h, Chan.called]

/-- Without turns the handshake never fails to hail. -/
theorem mpsseSync_hailed_last {s : State} (hroom : s.room 3 = true) (h : s.chan.turns = []) :
    mpsseSync s = (poll s.hailed).bind fun _ w => verify w := by
  refine mpsseSync_hailed hroom (fun _ => Chan.accepts_of_last h) (Chan.accepts_of_last ?_)
  unfold State.baselined
  split
  · rw [State.sent_chan, Chan.write_last h]
    exact h
  · exact h

/-! ## Commands that set the engine up (R70, R88) -/

theorem Chan.gated_open {c : Chan} {g : Gate} (h : c.sup.opens g = true) (op : Byte) (operands : List Byte)
    (act : Chan → Chan) : c.gated g op operands act = act c := if_pos h

/-- At the front of the stream stand commands that the engine executes without a clock pulse: `rest` is left and the
engine is `e`; the target, the record of the wire and the counter of free values may have moved. -/
structure Chan.Sets (c : Chan) (rest : List Byte) (e : Engine) (d : Chan) : Prop where
  settles : c.settle = d.settle
  eq : d = { c with tx := rest, eng := e, target := d.target, wire := d.wire, fresh := d.fresh }

section Sets

variable {c d : Chan} {rest : List Byte} {e : Engine}

theorem Chan.Sets.tx (h : c.Sets rest e d) : d.tx = rest := by rw [h.eq]

theorem Chan.Sets.eng (h : c.Sets rest e d) : d.eng = e := by rw [h.eq]

theorem Chan.Sets.sup (h : c.Sets rest e d) : d.sup = c.sup := by rw [h.eq]

theorem Chan.Sets.trans {f : Chan} {last : List Byte} {g : Engine} (h : c.Sets rest e d) (k : d.Sets last g f) :
    c.Sets last g f where
  settles := h.settles.trans k.settles
  eq := k.eq.trans (by rw [h.eq])

/-- A command that is read back is executed. -/
theorem Chan.sets_cmd {i : Instr} (hi : i.CmdReadsBack) (htx : c.tx = encodeCmd i ++ rest)
    (h : ∃ t w n, engCmd i { c with tx := rest } =
      { c with tx := rest, eng := e, target := t, wire := w, fresh := n }) : ∃ d, c.Sets rest e d := by
  obtain ⟨t, w, n, hcmd⟩ := h
  exact ⟨_, (Chan.settle_cmd (htx ▸ hi rest)).trans (congrArg Chan.settle hcmd), rfl⟩

theorem Chan.sets_bogus (htx : c.tx = encodeCmd .bogus ++ rest) :
    ∃ d, c.Sets rest { c.eng with gathered := c.eng.gathered ++ [c.marker, 0xAA] } d :=
  Chan.sets_cmd NoargOp.bogus.instr_readsBack htx ⟨_, _, _, rfl⟩

/-- A command of an enhanced chip is executed on one. -/
theorem Chan.sets_enhanced (o : NoargOp) (g : Engine → Engine) (h : c.sup.enh = true)
    (hcmd : engCmd o.instr { c with tx := rest } =
      Chan.gated .enhanced (CmdKey.noarg o).opcode [] (fun d => { d with eng := g d.eng }) { c with tx := rest })
    (htx : c.tx = encodeCmd o.instr ++ rest) : ∃ d, c.Sets rest (g c.eng) d := by
  have hopen : ({ c with tx := rest } : Chan).sup.opens .enhanced = true := h
  exact Chan.sets_cmd o.instr_readsBack htx ⟨_, _, _, hcmd.trans (Chan.gated_open hopen _ _ _)⟩

theorem Chan.sets_div5Off (h : c.sup.enh = true) (htx : c.tx = encodeCmd .div5Off ++ rest) :
    ∃ d, c.Sets rest { c.eng with div5 := false } d :=
  Chan.sets_enhanced .div5Off (fun e => { e with div5 := false }) h rfl htx

theorem Chan.sets_div5On (h : c.sup.enh = true) (htx : c.tx = encodeCmd .div5On ++ rest) :
    ∃ d, c.Sets rest { c.eng with div5 := true } d :=
  Chan.sets_enhanced .div5On (fun e => { e with div5 := true }) h rfl htx

theorem Chan.sets_adaptOff (h : c.sup.enh = true) (htx : c.tx = encodeCmd .adaptOff ++ rest) :
    ∃ d, c.Sets rest { c.eng with adaptive := false } d :=
  Chan.sets_enhanced .adaptOff (fun e => { e with adaptive := false }) h rfl htx

theorem Chan.sets_ph3Off (h : c.sup.enh = true) (htx : c.tx = encodeCmd .ph3Off ++ rest) :
    ∃ d, c.Sets rest { c.eng with threePhase := false } d :=
  Chan.sets_enhanced .ph3Off (fun e => { e with threePhase := false }) h rfl htx

theorem Chan.sets_ph3On (h : c.sup.enh = true) (htx : c.tx = encodeCmd .ph3On ++ rest) :
    ∃ d, c.Sets rest { c.eng with threePhase := true } d :=
  Chan.sets_enhanced .ph3On (fun e => { e with threePhase := true }) h rfl htx

end Sets

/-! ## The engine answers the handshake (R94, R275) -/

/-- The engine after the handshake: the baseline reaches an enhanced one (R205). -/
def hailedEngine (enh : Bool) (e : Engine) : Engine :=
  if enh then { e with div5 := false, adaptive := false, threePhase := false } else e

@[simp] theorem hailedEngine_gathered (enh : Bool) (e : Engine) : (hailedEngine enh e).gathered = e.gathered := by
  unfold hailedEngine
  split <;> rfl

/-- The baseline at the front of the stream, where it is sent. -/
theorem Chan.sets_baseline {c : Chan} (htx : c.tx = (hail c.sup.enh).flatten) :
    ∃ d, c.Sets (encodeCmd .bogus) (hailedEngine c.sup.enh c.eng) d := by
  cases henh : c.sup.enh with
  | false =>
    rw [henh] at htx
    exact ⟨c, rfl, by rw [← show c.tx = encodeCmd .bogus from htx]; rfl⟩
  | true =>
    rw [henh] at htx
    obtain ⟨d₁, h₁⟩ := Chan.sets_div5Off (rest := [0x97, 0x8D, 0xAA]) henh htx
    obtain ⟨d₂, h₂⟩ := Chan.sets_adaptOff (rest := [0x8D, 0xAA]) (h₁.sup ▸ henh) h₁.tx
    obtain ⟨d₃, h₃⟩ := Chan.sets_ph3Off (rest := [0xAA]) (h₂.sup ▸ h₁.sup ▸ henh) h₂.tx
    rw [h₂.eng, h₁.eng] at h₃
    exact ⟨d₃, (h₁.trans h₂).trans h₃⟩

/-- The engine works through the writes of the handshake and answers with the marker and `AA`. -/
theorem Chan.settle_hail {c : Chan} (htx : c.tx = (hail c.sup.enh).flatten) :
    c.Sets [] { hailedEngine c.sup.enh c.eng with gathered := c.eng.gathered ++ [c.marker, 0xAA] } c.settle := by
  obtain ⟨d, h⟩ := Chan.sets_baseline htx
  obtain ⟨f, k⟩ := Chan.sets_bogus (rest := []) h.tx
  have hall := h.trans k
  have hmarker : d.marker = c.marker := by rw [h.eq]
  rw [h.eng, hmarker, hailedEngine_gathered] at hall
  rwa [hall.settles, Chan.settle_nil hall.tx]

/-! ## The poll and the read, past the agent's last turn (R205) -/

theorem poll_bounded {s : State} {limit : Nat} (h : s.par.syncPollLimit = some limit) :
    poll s = pollBounded (limit - 1) s := by simp only [poll, h]

theorem poll_unbounded {s : State} (h : s.par.syncPollLimit = none) : poll s = pollUnbounded s.chan.turns s := by
  simp only [poll, h]

theorem count_last {s : State} (h : s.chan.settle.turns = []) :
    count s = .ok s.chan.settle.incoming.length (s.withChan (s.chan.settle.deliverAll.called .count)) := by
  simp [count, Chan.count, Chan.ask_last _ _ h]

/-- One count ends the poll when a response byte is incoming, bound or no bound. -/
theorem poll_last {s : State} (hturns : s.chan.turns = []) (hsettled : s.chan.settle.turns = [])
    (hne : s.chan.settle.incoming ≠ []) :
    poll s = .ok () (s.withChan (s.chan.settle.deliverAll.called .count)) := by
  have hlen : s.chan.settle.incoming.length ≠ 0 := fun h => hne (List.length_eq_zero_iff.1 h)
  rcases hlimit : s.par.syncPollLimit with _ | limit
  · rw [poll_unbounded hlimit, hturns, pollUnbounded, count_last hsettled, Res.ok_bind, if_neg hlen]
  · rw [poll_bounded hlimit]
    cases limit - 1 <;> rw [pollBounded, count_last hsettled, Res.ok_bind, if_neg hlen]

/-- After a count past the last turn, a read of two bytes takes the first two of the response stream in one call (R62,
R113). -/
theorem Chan.read_two_after_count {c : Chan} (htx : c.tx = []) (hturns : c.turns = []) (hlen : 2 ≤ c.incoming.length) :
    ∃ d, (c.deliverAll.called .count).readExact 2 = (.ok (c.incoming.take 2), d) ∧ d.incoming = c.incoming.drop 2
      ∧ d.calls = c.calls ++ [.count, .read 2]
      ∧ ∃ rx fl g, d = { c with rx := rx, inFlight := fl, eng := { c.eng with gathered := g }, calls := d.calls } := by
  generalize hp : c.deliverAll.called .count = p
  have hsettle : p.settle = p := Chan.settle_nil (by rw [← hp]; exact htx)
  have hinc : p.incoming = c.incoming := by
    rw [← hp]
    exact Chan.deliver_incoming _ _
  have hread := Chan.readExact_last 2 p (by decide) (by rw [hsettle, hinc]; exact hlen)
    (by rw [hsettle, ← hp]; exact hturns)
  rw [hsettle, hinc] at hread
  have hsplit := Chan.take_rx_append_incoming 2 p.deliverAll
  rw [Chan.deliverAll_rx, hinc, show p.deliverAll.incoming = _ from Chan.deliver_incoming _ _, hinc] at hsplit
  refine ⟨_, hread, ?_, by rw [← hp]; simp [Chan.takeRx, Chan.deliverAll], by rw [← hp]; exact ⟨_, _, _, rfl⟩⟩
  exact List.append_cancel_left (hsplit.trans (List.take_append_drop 2 c.incoming).symm)

/-- What the handshake leaves in the channel past the agent's last turn: two response bytes are read, and the engine has
the baseline. -/
structure Chan.Checked (c d : Chan) : Prop where
  turns : d.turns = []
  tx : d.tx = []
  incoming : d.incoming = (c.incoming ++ [c.marker, 0xAA]).drop 2
  calls : d.calls = c.calls ++ syncCalls c.sup.enh
  sup : d.sup = c.sup
  marker : d.marker = c.marker
  eng : ∃ g, d.eng = { hailedEngine c.sup.enh c.eng with gathered := g }

theorem syncCalls_eq (enh : Bool) : syncCalls enh = (hail enh).map .write ++ [.count, .read 2] := by
  cases enh <;> rfl

/-- The handshake past the agent's last turn, on a chip whose capabilities are latched: it passes exactly when the first
two response bytes are the marker and `AA`. -/
theorem mpsseSync_last {s : State} {resp : List Byte} (hroom : s.room 3 = true) (hcap : s.cap = s.chan.sup)
    (hturns : s.chan.turns = []) (htx : s.chan.tx = [])
    (hresp : resp = (s.chan.incoming ++ [s.chan.marker, 0xAA]).take 2) :
    ∃ d t, s.chan.Checked d ∧ t = { s with qbuf := s.hailed.qbuf, qcur := 0, chan := d } ∧
      mpsseSync s = if resp = [s.chan.marker, 0xAA] then .ok () t else .raised .synchronization (.got resp) t := by
  have hhailed := State.hailed_chan_last hturns
  rw [htx, List.nil_append, hcap] at hhailed
  have hsets := Chan.settle_hail (c := s.hailed.chan) (by rw [hhailed])
  generalize hc : s.hailed.chan.settle = c at hsets
  have hsettled := hsets.eq
  rw [hhailed] at hsettled
  have hinc : c.incoming = s.chan.incoming ++ [s.chan.marker, 0xAA] := by
    rw [hsettled]
    simp [Chan.incoming, List.append_assoc]
  have hcturns : c.turns = [] := by
    rw [hsettled]
    exact hturns
  obtain ⟨d, hread, hdinc, hdcalls, rx, fl, g, hd⟩ := Chan.read_two_after_count hsets.tx hcturns (by rw [hinc]; simp)
  have hpoll := poll_last (s := s.hailed) (by rw [hhailed]; exact hturns) (by rw [hc]; exact hcturns)
    (by rw [hc, hinc]; simp)
  have hdmarker : d.marker = s.chan.marker := by
    rw [hd, hsettled]
  refine ⟨d, _, ?_, rfl, ?_⟩
  · rw [hinc] at hdinc
    rw [hsettled] at hd hdcalls
    rw [List.append_assoc, ← syncCalls_eq] at hdcalls
    exact ⟨by rw [hd]; exact hturns, by rw [hd], hdinc, hdcalls, by rw [hd], hdmarker, g, by rw [hd]⟩
  · rw [hc] at hpoll
    rw [mpsseSync_hailed_last hroom hturns, hpoll, Res.ok_bind, verify, readExact_ok 2 _ hread, Res.ok_bind, hinc,
      ← hresp, syncAnswer, State.withChan_chan, hdmarker, s.hailed_eq]
    rfl

theorem Chan.Quiet.gathered {c : Chan} (h : c.Quiet) : c.eng.gathered = [] := by
  obtain ⟨-, -, hinc⟩ := h
  exact (List.append_eq_nil_iff.1 hinc).2

/-- On a quiet channel the handshake passes, and the channel is quiet again (R205). -/
theorem mpsseSync_quiet {s : State} (hroom : s.room 3 = true) (hcap : s.cap = s.chan.sup) (h : s.chan.Quiet) :
    ∃ d, s.chan.Served (syncCalls s.chan.sup.enh) (hailedEngine s.chan.sup.enh s.chan.eng) d
      ∧ mpsseSync s = .ok () { s with qbuf := s.hailed.qbuf, qcur := 0, chan := d } := by
  obtain ⟨hturns, htx, hinc⟩ := id h
  have hall : s.chan.incoming ++ [s.chan.marker, 0xAA] = [s.chan.marker, 0xAA] := by rw [hinc, List.nil_append]
  obtain ⟨d, t, hd, ht, hsync⟩ := mpsseSync_last (resp := [s.chan.marker, 0xAA]) hroom hcap hturns htx
    (by rw [hall]; rfl)
  have hquiet : d.Quiet := ⟨hd.turns, hd.tx, by rw [hd.incoming, hall]; rfl⟩
  obtain ⟨g, heng⟩ := hd.eng
  have hg : g = (hailedEngine s.chan.sup.enh s.chan.eng).gathered := by
    rw [hailedEngine_gathered, h.gathered, ← hquiet.gathered, heng]
  rw [if_pos rfl, ht] at hsync
  exact ⟨d, ⟨hquiet, hd.sup, hd.marker, hd.calls, by rw [heng, hg]⟩, hsync⟩

/-- Settles O47: with nothing incoming the two bytes read are the marker and `AA`. -/
theorem syncPassesOnTheEcho : Obligations.SyncPassesOnTheEcho := by
  intro s hopen hquiet hcap hroom
  obtain ⟨d, hserved, hsync⟩ := mpsseSync_quiet hroom hcap hquiet
  obtain ⟨hq, -⟩ := State.room_iff.1 hroom
  refine ⟨_, runOp_ok .mpsseSync needOpen mpsseSync _ s (needOpen_eq_none.2 hopen) hsync, ?_, ?_, hserved.quiet,
    fun henh => ?_, fun henh => ?_⟩
  · rw [State.answering, hq]
  · rw [hcap]
    exact hserved.calls
  · exact hserved.eng.trans (by rw [← hcap, henh]; rfl)
  · exact hserved.eng.trans (by rw [← hcap, henh]; rfl)

/-! ## An engine at work leaves the transport alone (R68, R70) -/

/-- What has reached `RX`, the agent's turns and the record of calls are as before. -/
structure Chan.SameTransport (c d : Chan) : Prop where
  rx : d.rx = c.rx := by rfl
  turns : d.turns = c.turns := by rfl
  calls : d.calls = c.calls := by rfl

theorem Chan.SameTransport.trans {c d e : Chan} (h : c.SameTransport d) (k : d.SameTransport e) : c.SameTransport e :=
  ⟨k.rx.trans h.rx, k.turns.trans h.turns, k.calls.trans h.calls⟩

theorem Chan.SameStreams.transport {c d : Chan} (h : c.SameStreams d) : c.SameTransport d := by
  obtain ⟨-, hrx, -, -, -, -, hcalls, hturns, -⟩ := h
  exact ⟨hrx, hturns, hcalls⟩

theorem Chan.movePins_transport (c : Chan) (e : Engine) : c.SameTransport (c.movePins e) := by
  obtain ⟨t, n, h⟩ := c.movePins_spec e
  rw [h]
  exact {}

theorem Chan.readPins_transport (v d o : Byte) (c : Chan) : c.SameTransport (c.readPins v d o) := by
  obtain ⟨b, ps, p, t, n, -, h⟩ := c.readPins_spec v d o
  rw [h]
  exact {}

theorem Chan.gated_transport (g : Gate) (op : Byte) (ops : List Byte) {act : Chan → Chan} (c : Chan)
    (h : c.SameTransport (act c)) : c.SameTransport (c.gated g op ops act) := by
  unfold Chan.gated
  split
  · exact h
  · exact {}

/-- No command touches the transport: a response is gathered in the chip, and SEND_IMM puts it on its way (R73, R273). -/
theorem engCmd_transport (i : Instr) (c : Chan) : c.SameTransport (engCmd i c) := by
  cases i
  case outBytesWpMsb | outBytesWnMsb | outBytesWpLsb | outBytesWnLsb => exact (Chan.outBytes_same _ _ _ _).transport
  case outBitsWpMsb | outBitsWnMsb | outBitsWpLsb | outBitsWnLsb => exact (Chan.outBits_same _ _ _ _ _).transport
  case inBytesRpMsb | inBytesRnMsb | inBytesRpLsb | inBytesRnLsb => exact (Chan.inBytes_same _ _ _ _).transport
  case inBitsRpMsb | inBitsRnMsb | inBitsRpLsb | inBitsRnLsb => exact (Chan.inBits_same _ _ _ _).transport
  case ioBytesWnRpMsb | ioBytesWpRnMsb | ioBytesWnRpLsb | ioBytesWpRnLsb =>
    exact (Chan.ioBytes_same _ _ _ _ _).transport
  case ioBitsWnRpMsb | ioBitsWpRnMsb | ioBitsWnRpLsb | ioBitsWpRnLsb => exact (Chan.ioBits_same _ _ _ _ _ _).transport
  case tmsWp | tmsWn => exact (Chan.tmsOut_same _ _ _ _).transport
  case tmsrWpRp | tmsrWnRp | tmsrWpRn | tmsrWnRn => exact (Chan.tmsIo_same _ _ _ _ _).transport
  case setLow v d =>
    have hpins := Chan.movePins_transport { c with wire := c.wire ++ [.low v d] } { c.eng with lowVal := v, lowDir := d }
    exact ⟨hpins.rx, hpins.turns, hpins.calls⟩
  case getLow | getHigh => exact Chan.readPins_transport _ _ _ c
  case div5Off | div5On | ph3On | ph3Off | adaptOn | adaptOff =>
    simp only [engCmd, cmdDiv5Off, cmdDiv5On, cmdPh3On, cmdPh3Off, cmdAdaptOn, cmdAdaptOff]
    exact Chan.gated_transport _ _ _ c {}
  case odCfg =>
    simp only [engCmd, cmdOdCfg]
    exact Chan.gated_transport _ _ _ c (c.movePins_transport _)
  all_goals exact {}

theorem Chan.engStep_transport {c d : Chan} (h : c.engStep = some d) : c.SameTransport d := by
  unfold Chan.engStep at h
  split at h
  · rename_i i r _
    cases h
    have hcmd := engCmd_transport i { c with tx := r }
    exact ⟨hcmd.rx, hcmd.turns, hcmd.calls⟩
  · cases h
    exact {}
  · cases h

theorem Chan.engRun_transport (k : Nat) (c : Chan) : c.SameTransport (c.engRun k) := by
  induction k generalizing c with
  | zero => exact {}
  | succ k ih =>
    unfold Chan.engRun
    split
    · rename_i d hd
      exact (Chan.engStep_transport hd).trans (ih d)
    · exact {}

theorem Chan.settle_transport (c : Chan) : c.SameTransport c.settle := c.engRun_transport _

/-! ## A channel that hands nothing over (R205, X13) -/

/-- A turn that hands nothing over: the count is 0 whatever the engine has gathered. -/
theorem count_silent {s : State} {ts : List Turn} (hrx : s.chan.rx = []) (hturns : s.chan.turns = .answers 0 :: ts) :
    ∃ d, count s = .ok 0 (s.withChan d) ∧ d.rx = [] ∧ d.turns = ts ∧ d.calls = s.chan.calls ++ [.count] := by
  have hsame := s.chan.settle_transport
  have hask := Chan.ask_answers (hsame.turns.trans hturns) .count
  have hnone : (s.chan.settle.ask .count).2.rx = [] := by
    rw [hask]
    simp [hsame.rx, hrx]
  refine ⟨_, ?_, hnone, by rw [hask]; rfl, by rw [hask]; simp [hsame.calls]⟩
  rw [count, Chan.count, hnone, hask]
  rfl

/-- Polled to its bound, the channel has been asked that many times and nothing else has happened. -/
theorem pollBounded_silent (k : Nat) {s : State} {ts : List Turn} (hrx : s.chan.rx = [])
    (hturns : s.chan.turns = List.replicate (k + 1) (.answers 0) ++ ts) :
    ∃ d, pollBounded k s = .raised .transport .syncPollTimeout (s.withChan d)
      ∧ d.calls = s.chan.calls ++ List.replicate (k + 1) .count := by
  induction k generalizing s with
  | zero =>
    obtain ⟨d, hcount, -, -, hcalls⟩ := count_silent hrx hturns
    exact ⟨d, by rw [pollBounded, hcount]; rfl, hcalls⟩
  | succ k ih =>
    rw [List.replicate_succ, List.cons_append] at hturns
    obtain ⟨d, hcount, hdrx, hdturns, hdcalls⟩ := count_silent hrx hturns
    obtain ⟨e, hpoll, hcalls⟩ := ih (s := s.withChan d) hdrx hdturns
    refine ⟨e, by rw [pollBounded, hcount, Res.ok_bind, if_pos rfl, hpoll]; rfl, ?_⟩
    rw [hcalls, State.withChan_chan, hdcalls, List.append_assoc, List.singleton_append, ← List.replicate_succ]

/-- Writes that are answered without a delivery: the calls, and what is left of the turns. -/
theorem State.hailed_silent {s : State} {us : List Turn} (hrx : s.chan.rx = [])
    (hturns : s.chan.turns = List.replicate (hail s.cap.enh).length (.answers 0) ++ us) :
    s.hailed.chan.rx = [] ∧ s.hailed.chan.turns = us
      ∧ s.hailed.chan.calls = s.chan.calls ++ (hail s.cap.enh).map .write := by
  cases henh : s.cap.enh <;> rw [henh] at hturns <;>
    simp_all [State.hailed, State.baselined, hail, Chan.write, List.replicate]

/-- Turns that answer the writes: the handshake goes on to its poll. -/
theorem mpsseSync_hailed_silent {s : State} {us : List Turn} (hroom : s.room 3 = true)
    (hturns : s.chan.turns = List.replicate (hail s.cap.enh).length (.answers 0) ++ us) :
    mpsseSync s = (poll s.hailed).bind fun _ w => verify w := by
  cases henh : s.cap.enh with
  | false =>
    rw [henh] at hturns
    refine mpsseSync_hailed hroom (fun h => by simp [henh] at h) ?_
    simp [State.baselined, henh, Chan.accepts, hturns, hail]
  | true =>
    rw [henh] at hturns
    refine mpsseSync_hailed hroom (fun _ => ?_) ?_
    · simp [Chan.accepts, hturns, hail, List.replicate_succ]
    · simp [State.baselined, henh, Chan.accepts, Chan.write, hturns, hail, List.replicate_succ]

/-- The handshake polls an agent that hands nothing over up to its bound, at least once (R205). -/
theorem mpsseSync_silent {s : State} {limit : Nat} {ts : List Turn} (hroom : s.room 3 = true)
    (hlimit : s.par.syncPollLimit = some limit) (hrx : s.chan.rx = [])
    (hturns : s.chan.turns = List.replicate (hail s.cap.enh).length (.answers 0)
      ++ (List.replicate (max 1 limit) (.answers 0) ++ ts)) :
    ∃ d, mpsseSync s = .raised .transport .syncPollTimeout { s with qbuf := s.hailed.qbuf, qcur := 0, chan := d }
      ∧ d.calls = s.chan.calls ++ (hail s.cap.enh).map .write ++ List.replicate (max 1 limit) .count := by
  have hmax : max 1 limit = limit - 1 + 1 := by omega
  obtain ⟨hhrx, hhturns, hhcalls⟩ := State.hailed_silent hrx hturns
  rw [hmax] at hhturns ⊢
  obtain ⟨d, hpoll, hcalls⟩ := pollBounded_silent (limit - 1) (s := s.hailed) hhrx hhturns
  have hbound : s.hailed.par.syncPollLimit = some limit := by rw [s.hailed_eq, hlimit]
  refine ⟨d, ?_, by rw [hcalls, hhcalls]⟩
  rw [mpsseSync_hailed_silent hroom hturns, poll_bounded hbound, hpoll, Res.raised_bind, s.hailed_eq]
  rfl

/-- The engine waits where the stream begins with an opcode the chip has and no whole command (R88). -/
theorem Chan.settle_short {c : Chan} {op : Byte} {r : List Byte} (htx : c.tx = op :: r)
    (hshort : decodeCmd (op :: r) = .short) (hhas : c.sup.lacks op = false) : c.settle = c := by
  have hfetch : c.engFetch = .short := by
    rw [Chan.engFetch, htx, hshort]
    exact if_neg (by simp [hhas])
  exact Chan.settle_idle (by rw [Chan.engStep, hfetch])

/-- A byte command of 65536 bytes without all its data is no whole command (R83). -/
theorem decodeCmd_waiting {r : List Byte} (hlen : r.length < 65536) :
    decodeCmd (0x10 :: 0xFF :: 0xFF :: r) = .short := by
  have hcount : ¬ le16 0xFF 0xFF + 1 ≤ r.length := by
    show ¬ 65535 + 1 ≤ r.length
    omega
  exact (decodeCmd_opcode (.bytesW .outWpMsb) _).trans (if_neg hcount)

/-- Past the agent's last turn, with nothing incoming and the engine waiting for data, an unbounded poll holds for good
(X13; log entry 24). -/
theorem mpsseSync_held {s : State} (hroom : s.room 3 = true) (hlimit : s.par.syncPollLimit = none)
    (hturns : s.chan.turns = []) (hinc : s.chan.incoming = []) (hwaits : s.hailed.chan.settle = s.hailed.chan) :
    mpsseSync s = .held .handshakeHold := by
  have hhailed := State.hailed_chan_last hturns
  have hhturns : s.hailed.chan.turns = [] := by rw [hhailed, hturns]
  have hhinc : s.hailed.chan.incoming = [] := by
    rw [hhailed]
    exact hinc
  have hcount := count_last (s := s.hailed) (by rw [hwaits, hhturns])
  rw [hwaits, hhinc] at hcount
  have hbound : s.hailed.par.syncPollLimit = none := by rw [s.hailed_eq, hlimit]
  rw [mpsseSync_hailed_last hroom hturns, poll_unbounded hbound, hhturns]
  simp only [pollUnbounded, hcount, Res.ok_bind, List.length_nil, if_true, Res.held_bind]

/-- Settles O48: the answer that is not the echo, the bound reached, and the poll without a bound. -/
theorem handshakeFailures : Obligations.HandshakeFailures := by
  intro s hopen hroom
  obtain ⟨hq, -⟩ := State.room_iff.1 hroom
  have hpre : needOpen s = none := needOpen_eq_none.2 hopen
  refine ⟨fun resp hcap hturns htx _ hresp hne => ?_, fun limit ts hlimit hrx hturns => ?_,
    fun r hlimit hturns hinc htx hlen => ?_⟩
  · obtain ⟨d, t, hd, ht, hsync⟩ := mpsseSync_last hroom hcap hturns htx hresp
    rw [if_neg hne, ht] at hsync
    refine ⟨_, runOp_raised .mpsseSync needOpen mpsseSync _ s hpre hsync, ?_, hd.incoming⟩
    simp [faultLate, opIsOpen, hq]
  · have hwrites : (hail s.cap.enh).length = if s.cap.enh then 2 else 1 := by cases s.cap.enh <;> rfl
    rw [← hwrites, List.replicate_add, List.append_assoc] at hturns
    obtain ⟨d, hsync, hcalls⟩ := mpsseSync_silent hroom hlimit hrx hturns
    refine ⟨_, runOp_raised .mpsseSync needOpen mpsseSync _ s hpre hsync, ?_, ?_⟩
    · rw [show opIsOpen .mpsseSync = false from rfl, faultLate_transport, hq]
    · refine hcalls.trans ?_
      cases s.cap.enh <;> simp [hail]
  · have hwaits : s.hailed.chan.settle = s.hailed.chan := by
      have hhailed : s.hailed.chan.tx = 0x10 :: 0xFF :: 0xFF :: (r ++ (hail s.cap.enh).flatten) := by
        rw [State.hailed_chan_last hturns, htx]
        rfl
      refine Chan.settle_short hhailed (decodeCmd_waiting ?_) rfl
      cases s.cap.enh <;> simp [hail] <;> omega
    have hsync := mpsseSync_held hroom hlimit hturns hinc hwaits
    show runOp .mpsseSync needOpen mpsseSync _ s = _
    rw [runOp, hpre, hsync]

end Sys2Proof.Machine

/-! PROOF. How an open fails (spec/46_open_sync_close.md R206, R210, R211; 60_exceptions.md R293, R296). The three opens
are one operation over an `OpenKind`: the capability queries are answered or one of them fails, the checks pass or refuse,
and from then on the body only buffers, flushes and calls until it completes, so that a fault leaves the channel dead. -/

namespace Sys2Proof.Machine

/-! ## The three opens (R207 to R209) -/

inductive OpenKind
  | jtag | spi | i2c

def OpenKind.instr (hz : Hertz) : OpenKind → Instr
  | .jtag => .jtagOpen hz
  | .spi => .spiOpen hz
  | .i2c => .i2cOpen hz

def OpenKind.op : OpenKind → HostOp
  | .jtag => .jtagOpen
  | .spi => .spiOpen
  | .i2c => .i2cOpen

def OpenKind.pre : OpenKind → State → Option (FaultCode × Detail)
  | .jtag => needMpsse
  | .spi => needSpiOpen
  | .i2c => needI2cOpen

def OpenKind.body (hz : Nat) : OpenKind → State → Res Divisor
  | .jtag => jtagOpen hz
  | .spi => spiOpen hz
  | .i2c => i2cOpen hz

theorem exec_open (k : OpenKind) (hz : Hertz) (s : State) :
    exec (k.instr hz) s = runOpen k.op k.pre (k.body hz.toNat) .divisor s := by cases k <;> rfl

theorem OpenKind.opIsOpen_op (k : OpenKind) : opIsOpen k.op = true := by cases k <;> rfl

theorem OpenKind.of_mem {hz : Hertz} {p : Instr × HostOp}
    (h : p ∈ [(Instr.jtagOpen hz, HostOp.jtagOpen), (.spiOpen hz, .spiOpen), (.i2cOpen hz, .i2cOpen)]) :
    ∃ k : OpenKind, p = (k.instr hz, k.op) := by
  simp only [List.mem_cons, List.not_mem_nil, or_false] at h
  obtain rfl | rfl | rfl := h
  · exact ⟨.jtag, rfl⟩
  · exact ⟨.spi, rfl⟩
  · exact ⟨.i2c, rfl⟩

section Queried

variable {s u : State} (k : OpenKind) {hz : Hertz} (hclosed : s.ch = .closed)
include hclosed

theorem needClosed_of_closed : needClosed s = none := by simp [needClosed, hclosed]

/-- Where the queries are answered, an open runs its checks and its body as every operation does. -/
theorem exec_open_queried (h : queryCaps s = .ok () u) :
    exec (k.instr hz) s = runOp k.op k.pre (k.body hz.toNat) .divisor u := by
  simp only [exec_open, runOpen, needClosed_of_closed hclosed, h]

/-- A query that fails is a fault of an operation that has not opened anything (R211; log entry 20). -/
theorem exec_open_unqueried {i : Detail} (h : queryCaps s = .raised .transport i u) :
    exec (k.instr hz) s = .next (faultLate false k.op .transport i u) := by
  simp only [exec_open, runOpen, needClosed_of_closed hclosed, h, takeFault]

end Queried

/-! ## The capability queries (R211) -/

/-- Calls that the agent answered: the same chip and stream, the calls made, as many turns gone. -/
structure Chan.Asked (c : Chan) (made : List TCall) (d : Chan) : Prop where
  sup : d.sup = c.sup
  tx : d.tx = c.tx
  calls : d.calls = c.calls ++ made
  turns : d.turns = c.turns.drop made.length

theorem Chan.Asked.trans {c d e : Chan} {xs ys : List TCall} (h : c.Asked xs d) (k : d.Asked ys e) :
    c.Asked (xs ++ ys) e where
  sup := k.sup.trans h.sup
  tx := k.tx.trans h.tx
  calls := by rw [k.calls, h.calls, List.append_assoc]
  turns := by rw [k.turns, h.turns, List.drop_drop, List.length_append]

theorem Chan.accepts_of_answers {c : Chan} {g : Nat} {ts : List Turn} (h : c.turns = .answers g :: ts) :
    c.accepts = true := by simp [Chan.accepts, h]

theorem Chan.asked {c : Chan} (h : c.accepts = true) (t : TCall) : ∃ d, c.ask t = (true, d) ∧ c.Asked [t] d := by
  obtain ⟨n, hask⟩ := Chan.ask_accepted h t
  exact ⟨_, hask, rfl, rfl, rfl, List.drop_one.symm⟩

/-- An agent that answers the queries answers each of them. -/
theorem Chan.accepts_of_answersQueries {c d : Chan} (h : c.answersQueries = true) {i : Nat} (hi : i < 3)
    (hd : d.turns = c.turns.drop i) : d.accepts = true := by
  by_contra hrefuses
  rw [Bool.not_eq_true, Chan.accepts_eq_false_iff] at hrefuses
  obtain ⟨k, ts, hturns⟩ := hrefuses
  have hturn : c.turns[i]? = some (.fails k) := by rw [← List.head?_drop, ← hd, hturns, List.head?_cons]
  have hmem : Turn.fails k ∈ c.turns.take 3 :=
    List.mem_of_getElem? (i := i) (by rw [List.getElem?_take_of_lt hi, hturn])
  exact Bool.noConfusion (List.all_eq_true.1 h _ hmem)

theorem queryCaps_answered {s : State} (h : s.chan.answersQueries = true) :
    ∃ d, queryCaps s = .ok () (s.withChan d) ∧ s.chan.Asked queryCalls d := by
  obtain ⟨c₁, h₁, k₁⟩ := Chan.asked (Chan.accepts_of_answersQueries h (i := 0) (by decide) rfl) .supportsMpsse
  obtain ⟨c₂, h₂, k₂⟩ := Chan.asked (Chan.accepts_of_answersQueries h (i := 1) (by decide) k₁.turns) .supportsEnhanced
  have k := k₁.trans k₂
  obtain ⟨c₃, h₃, k₃⟩ := Chan.asked (Chan.accepts_of_answersQueries h (i := 2) (by decide) k.turns) .supportsOpenDrain
  refine ⟨c₃, ?_, k.trans k₃⟩
  rw [queryCaps, setupCall_ok _ h₁, Res.ok_bind, setupCall_withChan s _ h₂, Res.ok_bind, setupCall_withChan s _ h₃]

/-- The first query that fails is the fault, and those after it are not made (log entry 20). -/
theorem queryCaps_fails {s : State} {gs : List Nat} {k : Nat} {ts : List Turn} (hlen : gs.length < 3)
    (hturns : s.chan.turns = gs.map .answers ++ .fails k :: ts) :
    ∃ d, queryCaps s = .raised .transport
        ([Detail.supportsMpsse, .supportsEnhanced, .supportsOpenDrain].getD gs.length .nothing) (s.withChan d)
      ∧ d.calls = s.chan.calls ++ queryCalls.take (gs.length + 1) := by
  rcases gs with _ | ⟨a, _ | ⟨b, _ | ⟨_, _⟩⟩⟩
  · have h₁ := Chan.ask_fails hturns .supportsMpsse
    exact ⟨_, by rw [queryCaps, setupCall_raised _ h₁]; rfl, rfl⟩
  · obtain ⟨c₁, h₁, k₁⟩ := Chan.asked (Chan.accepts_of_answers hturns) .supportsMpsse
    have h₂ := Chan.ask_fails (k₁.turns.trans (congrArg (List.drop 1) hturns)) .supportsEnhanced
    refine ⟨_, by rw [queryCaps, setupCall_ok _ h₁, Res.ok_bind, setupCall_raised (s := s.withChan c₁) _ h₂]; rfl, ?_⟩
    simp [k₁.calls, queryCalls]
  · obtain ⟨c₁, h₁, k₁⟩ := Chan.asked (Chan.accepts_of_answers hturns) .supportsMpsse
    obtain ⟨c₂, h₂, k₂⟩ := Chan.asked (Chan.accepts_of_answers (k₁.turns.trans (congrArg (List.drop 1) hturns))) .supportsEnhanced
    have k₁₂ := k₁.trans k₂
    have h₃ := Chan.ask_fails (k₁₂.turns.trans (congrArg (List.drop 2) hturns)) .supportsOpenDrain
    refine ⟨_, by rw [queryCaps, setupCall_ok _ h₁, Res.ok_bind, setupCall_withChan s _ h₂, Res.ok_bind,
      setupCall_raised (s := s.withChan c₂) _ h₃]; rfl, ?_⟩
    simp [k₁₂.calls, queryCalls]
  · simp at hlen
    omega

/-! ## The checks (R210) -/

/-- An open whose queries are answered and whose checks refuse. -/
theorem OpenKind.refuses (k : OpenKind) {s : State} {hz : Hertz} {r : CfgReason} (hclosed : s.ch = .closed)
    (h : s.chan.answersQueries = true)
    (hpre : ∀ d : Chan, d.sup = s.chan.sup → k.pre (s.withChan d) = some (.configuration, .reason r)) :
    s.RefusesOpen (k.instr hz) k.op r := by
  obtain ⟨d, hquery, hd⟩ := queryCaps_answered h
  refine ⟨_, (exec_open_queried k hclosed hquery).trans (runOp_early _ _ _ _ _ (hpre d hd.sup)), rfl, hd.calls⟩

/-- What the checks of an open ask of the chip and the configuration (R206, R208, R209). -/
structure Openable (s : State) : Prop where
  mpsse : s.chan.sup.mpsse = true
  mode : spiModeSupported s.spiMode = true
  threePhase : s.i2cThreePhase = true → s.chan.sup.enh = true

theorem OpenKind.passes (k : OpenKind) {s : State} (h : Openable s) : k.pre s = none := by
  have hmpsse : needMpsse s = none := check_eq_none.2 h.mpsse
  cases k
  case jtag => exact hmpsse
  case spi => exact orElse_eq_none.2 ⟨hmpsse, check_eq_none.2 h.mode⟩
  case i2c =>
    refine orElse_eq_none.2 ⟨hmpsse, check_eq_none.2 ?_⟩
    cases hphase : s.i2cThreePhase
    · rfl
    · exact h.threePhase hphase

/-! ## A fault after the checks (R206, R296) -/

/-- What an open that has not completed leaves: nothing logged, and the mirror not trusted anew. -/
structure Unfinished (s u : State) : Prop where
  flog : u.flog = s.flog := by rfl
  known : u.tapKnown = true → s.tapKnown = true

section Unfinished

variable {α β : Type} {s t u : State} {r : Res α} {f : α → State → Res β}

theorem Unfinished.latchCaps (s : State) : Unfinished s s.latchCaps := ⟨rfl, id⟩

theorem Unfinished.step (h : Unfinished s t) (hq : QueueStep t u) : Unfinished s u :=
  ⟨hq.flog.trans h.flog, h.known ∘ hq.known⟩

/-- The body may complete; where it raises, nothing was logged. -/
def Res.Unfinishes {α : Type} (s : State) (r : Res α) : Prop := r.Ensures (fun _ => True) (Unfinished s)

theorem Unfinished.bind (h : Unfinished s t) (hr : r.Steps t) (hf : ∀ a u, Unfinished s u → (f a u).Unfinishes s) :
    (r.bind f).Unfinishes s :=
  Res.Ensures.bind (hr.mono (fun _ => h.step) fun _ => h.step) hf

theorem jtagOpen_unfinishes (hz : Nat) (s : State) : (jtagOpen hz s).Unfinishes s :=
  (Unfinished.latchCaps s).bind (openCommon_steps s) fun _ t ht => ht.bind (clkConfigure_drains hz t).steps fun _ u hu =>
    hu.bind (emit_steps _ u) fun _ v hv => hv.bind (setl_steps _ _ v) fun _ w hw =>
      hw.bind (flush_drains w).steps fun _ x hx =>
        have hx' : Unfinished s { x with endIr := .idle, endDr := .idle, ch := .opened, proto := .jtag } :=
          ⟨hx.flog, hx.known⟩
        Res.Ensures.bind ((jtagReset_ensures rfl rfl).mono (Q' := fun _ => True) (fun _ _ => trivial) fun _ => hx'.step)
          fun _ _ _ => trivial

theorem spiOpen_unfinishes (hz : Nat) (s : State) : (spiOpen hz s).Unfinishes s :=
  (Unfinished.latchCaps s).bind (openCommon_steps s) fun _ t ht => ht.bind (clkConfigure_drains hz t).steps fun _ u hu =>
    hu.bind (emit_steps _ u) fun _ v hv => hv.bind (setl_steps _ _ v) fun _ w hw =>
      hw.bind (flush_drains w).steps fun _ _ _ => trivial

theorem i2cOpen_unfinishes (hz : Nat) (s : State) : (i2cOpen hz s).Unfinishes s :=
  (Unfinished.latchCaps s).bind (openCommon_steps s) fun _ t ht => ht.bind (emitAll_steps _ t) fun _ u hu =>
    hu.bind (clkConfigure_drains _ u).steps fun _ v hv => hv.bind (emitAll_steps _ v) fun _ w hw =>
      hw.bind (i2cHold_steps _ _ w) fun _ x hx => hx.bind (flush_drains x).steps fun _ _ _ => trivial

end Unfinished

theorem OpenKind.body_unfinishes (k : OpenKind) (hz : Nat) (s : State) : (k.body hz s).Unfinishes s := by
  cases k
  · exact jtagOpen_unfinishes hz s
  · exact spiOpen_unfinishes hz s
  · exact i2cOpen_unfinishes hz s

/-- A fault of an open's body: the channel is dead (R210, R296). -/
theorem OpenKind.dies (k : OpenKind) {s t : State} {hz : Hertz} {c : FaultCode} (hopenable : Openable s)
    (h : runOp k.op k.pre (k.body hz.toNat) .divisor s = .next t) (hfault : t.answer = .fault c) :
    t.ch = .dead ∧ t.proto = .none ∧ t.qcur = 0 ∧ (s.tapKnown = false → t.tapKnown = false)
      ∧ t.flog.length = s.flog.length + 1 := by
  obtain ⟨code, i, hpre, -⟩ | ⟨-, a, u, -, rfl⟩ | ⟨-, code, i, u, hbody, rfl⟩ := runOp_cases _ _ _ _ _ _ h
  · rw [k.passes hopenable] at hpre
    cases hpre
  · cases hfault
  · have hraised := k.body_unfinishes hz.toNat s
    rw [hbody] at hraised
    obtain ⟨hflog, hknown⟩ := hraised
    rw [k.opIsOpen_op]
    refine ⟨rfl, rfl, rfl, fun hs => ?_, ?_⟩
    · have hu : u.tapKnown = false := Bool.eq_false_iff.2 fun hk => Bool.eq_false_iff.1 hs (hknown hk)
      simp [faultLate, hu]
    · simp [faultLate, hflog]

/-- A body raises what its common part raises. -/
theorem OpenKind.body_raised (k : OpenKind) (hz : Nat) {s u : State} {c : FaultCode} {i : Detail}
    (h : openCommon s = .raised c i u) : k.body hz s = .raised c i u := by
  cases k
  · rw [OpenKind.body, jtagOpen, h, Res.raised_bind]
  · rw [OpenKind.body, spiOpen, h, Res.raised_bind]
  · rw [OpenKind.body, i2cOpen, h, Res.raised_bind]

/-- Where the first setup call fails, no other call is made. -/
theorem openCommon_setup_fails {s : State} (htx : s.chan.tx = []) (h : s.chan.accepts = false) :
    ∃ u, openCommon s = .raised .transport .setBitMode u
      ∧ u.chan.calls = s.chan.calls ++ [.setBitMode 0 .reset] := by
  obtain ⟨d, hcall, hcalls⟩ : ∃ d, s.chan.setBitMode 0 .reset = (false, d)
      ∧ d.calls = s.chan.calls ++ [.setBitMode 0 .reset] := ⟨_, Chan.setup_refused htx _ _ h, rfl⟩
  refine ⟨s.latchCaps.withChan d, ?_, hcalls⟩
  rw [openCommon, openSetup, setupCall_raised (s := s.latchCaps) _ hcall, Res.raised_bind, Res.raised_bind]

theorem OpenKind.pre_noMpsse (k : OpenKind) {s : State} (h : s.chan.sup.mpsse = false) :
    k.pre s = some (.configuration, .reason .noMpsse) := by
  cases k <;> simp [OpenKind.pre, needSpiOpen, needI2cOpen, needMpsse, h]

/-- Settles O52: the checks refuse, a query fails, or the body raises. -/
theorem failedOpenLeavesDead : Obligations.FailedOpenLeavesDead := by
  intro s hz hclosed
  refine ⟨fun hquery => ⟨fun hmpsse p hp => ?_, fun hmpsse hmode => ?_, fun hmpsse hphase henh => ?_⟩,
    fun gs n ts hlen hturns p hp => ?_, fun hquery hmpsse hmode hphase i hi => ?_⟩
  · obtain ⟨k, rfl⟩ := OpenKind.of_mem hp
    exact k.refuses hclosed hquery fun d hd => k.pre_noMpsse (by rw [State.withChan_chan, hd, hmpsse])
  · refine OpenKind.refuses .spi hclosed hquery fun d hd => ?_
    simp [OpenKind.pre, needSpiOpen, needMpsse, hd, hmpsse, hmode]
  · refine OpenKind.refuses .i2c hclosed hquery fun d hd => ?_
    simp [OpenKind.pre, needI2cOpen, needMpsse, hd, hmpsse, hphase, henh]
  · obtain ⟨k, rfl⟩ := OpenKind.of_mem hp
    obtain ⟨d, hquery, hcalls⟩ := queryCaps_fails hlen hturns
    exact ⟨_, exec_open_unqueried k hclosed hquery, faultLate_transport _ _ _, hcalls⟩
  · obtain ⟨k, rfl⟩ : ∃ k : OpenKind, i = k.instr hz := by
      simp only [List.mem_cons, List.not_mem_nil, or_false] at hi
      obtain rfl | rfl | rfl := hi
      · exact ⟨.jtag, rfl⟩
      · exact ⟨.spi, rfl⟩
      · exact ⟨.i2c, rfl⟩
    obtain ⟨d, hqueried, hd⟩ := queryCaps_answered hquery
    have hopenable : Openable (s.withChan d) :=
      ⟨by rw [State.withChan_chan, hd.sup, hmpsse], hmode, by rw [State.withChan_chan, hd.sup]; exact hphase⟩
    rw [exec_open_queried k hclosed hqueried]
    refine ⟨fun t c h hfault => k.dies (s := s.withChan d) hopenable h hfault, fun a b c n ts htx hturns => ?_⟩
    have hrefuses : d.accepts = false :=
      Chan.accepts_eq_false_iff.2 ⟨n, ts, hd.turns.trans (congrArg (List.drop 3) hturns)⟩
    obtain ⟨u, hcommon, hcalls⟩ := openCommon_setup_fails (s := s.withChan d) (hd.tx.trans htx) hrefuses
    have hbody := k.body_raised hz.toNat hcommon
    refine ⟨_, runOp_raised _ _ _ _ _ (k.passes hopenable) hbody, rfl, ?_, ?_⟩
    · rw [k.opIsOpen_op]
      rfl
    · exact hcalls.trans (congrArg (· ++ _) hd.calls)

end Sys2Proof.Machine

/-! PROOF. The opens that complete (spec/46_open_sync_close.md R206 to R209, R211; 43_jtag.md R150; 45_i2c.md R191). On
a quiet channel the queries, the setup calls and the handshake are served, and every body goes on from the same state,
`State.brought`. Its writes wait in the stream, and the engine's work on them is a run of `Chan.Sets`, one for each
command, with the TMS sequence of JTAG.OPEN at the end. -/

namespace Sys2Proof.Machine

/-! ## Up to the handshake (R206, R211) -/

theorem queryCaps_quiet {s : State} (h : s.chan.Quiet) :
    ∃ d, queryCaps s = .ok () (s.withChan d) ∧ s.chan.Served queryCalls s.chan.eng d := by
  have h₁ := h.ask .supportsMpsse
  have h₂ := (h.called .supportsMpsse).ask .supportsEnhanced
  have h₃ := ((h.called .supportsMpsse).called .supportsEnhanced).ask .supportsOpenDrain
  refine ⟨((s.chan.called .supportsMpsse).called .supportsEnhanced).called .supportsOpenDrain, ?_, h, rfl, rfl,
    by simp [queryCalls], rfl⟩
  rw [queryCaps, setupCall_ok _ h₁, Res.ok_bind, setupCall_withChan s _ h₂, Res.ok_bind, setupCall_withChan s _ h₃]

/-- Where the bodies of the three opens part (R206): capabilities latched, queue and shadows cleared, the mirror not
known. -/
def State.brought (s : State) (m : Memory) (d : Chan) : State :=
  { s with cap := s.chan.sup, qbuf := m, qcur := 0, plVal := 0, plDir := 0, tapKnown := false, chan := d }

/-- The same with the bus pins at their idle levels, as JTAG.OPEN and SPI.OPEN set them (R207, R208). -/
def State.idled (s : State) (m : Memory) (d : Chan) (lev : Byte) : State :=
  { s.brought m d with plVal := lev, plDir := 0x0B }

/-- The state in which JTAG.OPEN makes its reset (R207). -/
def State.jtagEntered (s : State) : State := { s with endIr := .idle, endDr := .idle, ch := .opened, proto := .jtag }

/-- The engine where the bodies of the three opens part: pins inputs, the baseline (R205, R206). -/
def broughtEngine (enh : Bool) (e : Engine) : Engine := hailedEngine enh { e with lowDir := 0, highDir := 0 }

theorem openCommon_quiet {s : State} (hcap : 3 ≤ s.par.qcap) (h : s.chan.Quiet) :
    ∃ m d, openCommon s = .ok () (s.brought m d)
      ∧ s.chan.Served ((setupCalls s.par).drop 3 ++ syncCalls s.chan.sup.enh)
          (broughtEngine s.chan.sup.enh s.chan.eng) d := by
  obtain ⟨c, hsetup, hc⟩ := openSetup_quiet (s := s.latchCaps) h
  have hlatched : (s.brought s.qbuf c).cap = (s.brought s.qbuf c).chan.sup := hc.sup.symm
  obtain ⟨d, hd, hsync⟩ := mpsseSync_quiet (s := s.brought s.qbuf c) (State.room_iff.2 ⟨rfl, hcap⟩) hlatched hc.quiet
  have hserved := hc.trans hd
  rw [show (s.brought s.qbuf c).chan = c from rfl, hc.sup, hc.eng] at hserved
  refine ⟨(s.brought s.qbuf c).hailed.qbuf, d, ?_, hserved⟩
  rw [openCommon, hsetup, Res.ok_bind]
  exact hsync

/-- An open on a closed quiet channel with an MPSSE chip, up to where the bodies part. -/
theorem OpenKind.exec_ready (k : OpenKind) {s : State} (hz : Hertz) (h : OpenReady s)
    (hpasses : ∀ d : Chan, d.sup = s.chan.sup → k.pre (s.withChan d) = none) :
    ∃ u m d, openCommon u = .ok () (s.brought m d)
      ∧ s.chan.Served (setupCalls s.par ++ syncCalls s.chan.sup.enh) (broughtEngine s.chan.sup.enh s.chan.eng) d
      ∧ u.spiMode = s.spiMode ∧ u.spiCsActiveHigh = s.spiCsActiveHigh
      ∧ ∀ a t, k.body hz.toNat u = .ok a t → exec (k.instr hz) s = .next (t.answering (.divisor a)) := by
  obtain ⟨hclosed, hquiet, -, hcap, -⟩ := h
  obtain ⟨c, hquery, hc⟩ := queryCaps_quiet hquiet
  obtain ⟨m, d, hcommon, hd⟩ := openCommon_quiet (s := s.withChan c) (Nat.le_trans (by decide) hcap) hc.quiet
  have hserved := hc.trans hd
  rw [State.withChan_chan, hc.sup, hc.eng] at hserved
  refine ⟨s.withChan c, m, d, ?_, hserved, rfl, rfl, fun a t hbody => ?_⟩
  · rw [hcommon, State.brought, State.brought, State.withChan_chan, hc.sup]
    rfl
  · exact (exec_open_queried k hclosed hquery).trans (runOp_ok _ _ _ _ _ (hpasses c hc.sup) hbody)

/-! ## Writes past the agent's last turn (R61) -/

/-- The channel after these writes. -/
def Chan.writes (bss : List (List Byte)) (c : Chan) : Chan :=
  { c with tx := c.tx ++ bss.flatten, calls := c.calls ++ bss.map .write }

theorem Chan.writes_nil (c : Chan) : c = c.writes [] := by simp [Chan.writes]

theorem Chan.write_writes {c : Chan} (h : c.turns = []) (bss : List (List Byte)) (bs : List Byte) :
    ((c.writes bss).write bs).2 = c.writes (bss ++ [bs]) := by
  have hturns : (c.writes bss).turns = [] := h
  rw [Chan.write_last hturns]
  simp [Chan.writes, Chan.called]

theorem State.sent_writes {s : State} {d : Chan} {bss : List (List Byte)} (hd : d.turns = [])
    (h : s.chan = d.writes bss) (bs : List Byte) :
    ∃ m, s.sent bs = { s with qbuf := m, qcur := 0, chan := d.writes (bss ++ [bs]) } :=
  ⟨_, by rw [State.sent, h, Chan.write_writes hd]⟩

theorem State.accepts_of_writes {s : State} {d : Chan} {bss : List (List Byte)} (hd : d.turns = [])
    (h : s.chan = d.writes bss) : s.chan.accepts = true := Chan.accepts_of_last (by rw [h]; exact hd)

/-! ## The bodies (R207 to R209) -/

/-- LOOP_OFF and one pin-set, flushed together: the bus pins at their idle levels (R207, R208). -/
theorem idlePins_sent {β : Type} {s : State} {lev : Byte} {f : Unit → State → Res β} (hq : s.qcur = 0)
    (hcap : 4 ≤ s.par.qcap) (hacc : s.chan.accepts = true) (hval : s.plVal = 0) (hdir : s.plDir = 0) :
    ((emit [Config.opmap.loopOff] s).bind fun _ v =>
        (setl ((v.plVal &&& upperMask) ||| lev) ((v.plDir &&& upperMask) ||| outputMask) v).bind fun _ w =>
          (flush w).bind f)
      = f () { s.sent [0x85, 0x80, lev, 0x0B] with plVal := lev, plDir := 0x0B } := by
  have hlev : ((0 : Byte) &&& upperMask) ||| lev = lev := by simp
  have hout : ((0 : Byte) &&& upperMask) ||| outputMask = 0x0B := rfl
  have hflush := flush_append { s with plVal := lev, plDir := 0x0B } [0x85, 0x80, lev, 0x0B] hq (List.cons_ne_nil _ _)
    hacc
  rw [emit_ok _ s (by rw [hq]; exact Nat.le_trans (by decide) hcap), Res.ok_bind, State.append_plVal,
    State.append_plDir, hval, hdir, hlev, hout, setl_ok _ _ _ (by simpa [hq] using hcap), Res.ok_bind,
    State.append_append]
  exact (congrArg (Res.bind · f) hflush).trans rfl

/-- A clock change after what was buffered in an empty queue, in one transfer with it (R120, R209). -/
theorem clkConfigure_append {s : State} {bs : List Byte} (hz : Nat) (hwf : s.par.wf = true) (hq : s.qcur = 0)
    (hacc : s.chan.accepts = true) (hfit : (bs ++ clockCmds s.par s.cap.enh hz).length ≤ s.par.qcap) :
    clkConfigure hz (s.append bs) = .ok (BitVec.ofNat 16 (clkDivisorFor s.par s.cap.enh hz))
      (s.sent (bs ++ clockCmds s.par s.cap.enh hz)) := by
  have hemits := clkEmits_flatten hwf s.cap.enh hz
  have hemit : emitAll (clkEmits s.par s.cap.enh hz) (s.append bs) = _ :=
    emitAll_append (by rw [hemits, hq, Nat.zero_add]; exact hfit)
  have hne : bs ++ clockCmds s.par s.cap.enh hz ≠ [] := List.append_ne_nil_of_right_ne_nil _ (clockCmds_ne_nil _ _ _)
  rw [clkConfigure, State.append_par, State.append_cap, hemit, Res.ok_bind, hemits, flush_append s _ hq hne hacc,
    Res.ok_bind]

theorem clockCmds_length (par : Config.Params) (enh : Bool) (hz : Nat) : (clockCmds par enh hz).length ≤ 4 := by
  cases enh
  · exact Nat.le_succ 3
  · by_cases h : par.fLo < hz <;> simp [clockCmds, encodeCmd, h]

/-- The pins of the idle bus (R177, R182). -/
def busIdle (od : Bool) : Byte := if od then 0x03 else 0x01

theorem phasePins_busIdle (od : Bool) : phasePins od 0 0 true .rel = (busIdle od, busIdle od) := by cases od <;> rfl

/-- LOOP_OFF, the open-drain set-up and the idle phase held (R209). -/
def busSetUp (par : Config.Params) (od : Bool) : List Byte :=
  [0x85] ++ (i2cDrain od).flatten ++ (List.replicate par.i2cRepeat [0x80, busIdle od, busIdle od]).flatten

theorem holdCmds_busIdle {s : State} (hval : s.plVal = 0) (hdir : s.plDir = 0) :
    holdCmds s true .rel = (List.replicate s.par.i2cRepeat [0x80, busIdle s.cap.od, busIdle s.cap.od]).flatten := by
  rw [holdCmds, phaseCmd, hval, hdir, phasePins_busIdle]
  rfl

/-- LOOP_OFF, the open-drain set-up and the idle phase are flushed together (R209). -/
theorem busIdle_sent {β : Type} {s : State} {f : Unit → State → Res β} (hq : s.qcur = 0) (hrep : 0 < s.par.i2cRepeat)
    (hcap : 4 + 3 * s.par.i2cRepeat ≤ s.par.qcap) (hacc : s.chan.accepts = true) (hval : s.plVal = 0)
    (hdir : s.plDir = 0) :
    ((emitAll ([[Config.opmap.loopOff]] ++ i2cDrain s.cap.od) s).bind fun _ w =>
        (i2cHold true .rel w).bind fun _ x => (flush x).bind f)
      = f () { s.sent (busSetUp s.par s.cap.od) with plVal := busIdle s.cap.od, plDir := busIdle s.cap.od } := by
  have hlen : ([[Config.opmap.loopOff]] ++ i2cDrain s.cap.od).flatten.length ≤ 4 := by cases s.cap.od <;> decide
  have hpinned : s.pinned true .rel = { s with plVal := busIdle s.cap.od, plDir := busIdle s.cap.od } := by
    rw [State.pinned, State.afterPhase, hval, hdir, phasePins_busIdle]
  have hset := emitAll_ok ([[Config.opmap.loopOff]] ++ i2cDrain s.cap.od) s (by omega)
  have hhold := i2cHold_ok (s := s.append ([[Config.opmap.loopOff]] ++ i2cDrain s.cap.od).flatten)
    (scl := true) (sda := .rel) hrep (by rw [State.append_qcur, State.append_par]; omega)
  have hflush := flush_append (s.pinned true .rel) (busSetUp s.par s.cap.od) hq (by simp [busSetUp]) hacc
  rw [hset, Res.ok_bind, hhold, Res.ok_bind, State.pinned_append, State.append_append,
    holdCmds_busIdle (by exact hval) (by exact hdir)]
  refine (congrArg (Res.bind · f) hflush).trans ?_
  rw [Res.ok_bind, hpinned]
  rfl

section Bodies

variable {s u : State} {m : Memory} {d : Chan} {hz : Nat} (hcommon : openCommon u = .ok () (s.brought m d))
  (hd : d.turns = []) (hwf : s.par.wf = true) (hcap : 16 ≤ s.par.qcap)

section

include hd hwf hcap

/-- After the handshake JTAG.OPEN and SPI.OPEN configure the clock and set the pins idle, in two transfers. -/
theorem clockThenPins_brought {β : Type} (lev : Byte) (f : Divisor → Unit → State → Res β) :
    ∃ m', ((clkConfigure hz (s.brought m d)).bind fun a u =>
        (emit [Config.opmap.loopOff] u).bind fun _ v =>
          (setl ((v.plVal &&& upperMask) ||| lev) ((v.plDir &&& upperMask) ||| outputMask) v).bind fun _ w =>
            (flush w).bind (f a))
      = f (BitVec.ofNat 16 (clkDivisorFor s.par s.chan.sup.enh hz)) () (s.idled m'
          (d.writes [clockCmds s.par s.chan.sup.enh hz, [0x85, 0x80, lev, 0x0B]]) lev) := by
  generalize hcmds : clockCmds s.par s.chan.sup.enh hz = clk
  have hfit : clk.length ≤ s.par.qcap :=
    hcmds ▸ Nat.le_trans (clockCmds_length _ _ _) (Nat.le_trans (by decide) hcap)
  obtain ⟨m₁, hclk⟩ := State.sent_writes (s := s.brought m d) hd d.writes_nil clk
  obtain ⟨m₂, hpins⟩ := State.sent_writes (s := s.brought m₁ (d.writes [clk])) hd rfl [0x85, 0x80, lev, 0x0B]
  have hconf : clkConfigure hz (s.brought m d)
      = .ok (BitVec.ofNat 16 (clkDivisorFor s.par s.chan.sup.enh hz)) (s.brought m₁ (d.writes [clk])) := by
    have hok := clkConfigure_ok (s := s.brought m d) hz hwf (Chan.accepts_of_last hd)
      (State.room_iff.2 ⟨rfl, hcmds ▸ hfit⟩)
    rw [show clockCmds (s.brought m d).par (s.brought m d).cap.enh hz = clk from hcmds, hclk] at hok
    exact hok
  have hidle := idlePins_sent (s := s.brought m₁ (d.writes [clk])) (lev := lev)
    (f := f (BitVec.ofNat 16 (clkDivisorFor s.par s.chan.sup.enh hz))) rfl
    (Nat.le_trans (by decide) hcap) (Chan.accepts_of_last hd) rfl rfl
  rw [hpins] at hidle
  exact ⟨m₂, by rw [hconf, Res.ok_bind]; exact hidle⟩

end

include hcommon hd hwf hcap

/-- The body of JTAG.OPEN: the clock, the idle pins, the run of ones (R207). -/
theorem jtagOpen_brought {bits : List Bool} (hbits : List.replicate s.par.resetPulses true = bits) (hne : bits ≠ [])
    (hfit : (tmsSeq bits).length ≤ s.par.qcap) :
    ∃ m', jtagOpen hz u = .ok (BitVec.ofNat 16 (clkDivisorFor s.par s.chan.sup.enh hz))
      { (s.idled m' (d.writes [clockCmds s.par s.chan.sup.enh hz, [0x85, 0x80, 0x08, 0x0B], tmsSeq bits])
          0x08).jtagEntered with tapCur := .reset, tapKnown := true } := by
  obtain ⟨m₁, hpins⟩ := clockThenPins_brought (s := s) (m := m) (hz := hz) hd hwf hcap csMask fun a _ x =>
    (jtagReset x.jtagEntered).bind fun _ y => .ok a y
  generalize hc : d.writes [clockCmds s.par s.chan.sup.enh hz, [0x85, 0x80, csMask, 0x0B]] = c at hpins
  obtain ⟨m₂, hones⟩ := State.sent_writes (s := (s.idled m₁ c csMask).jtagEntered) hd hc.symm (tmsSeq bits)
  have hreset := jtagReset_sent (s := (s.idled m₁ c csMask).jtagEntered) hbits hne (State.room_iff.2 ⟨rfl, hfit⟩)
    (State.accepts_of_writes hd hc.symm)
  rw [hones] at hreset
  refine ⟨m₂, ?_⟩
  rw [jtagOpen, hcommon, Res.ok_bind]
  refine hpins.trans ?_
  rw [hreset, Res.ok_bind]
  rfl

/-- The body of SPI.OPEN: the clock and the idle pins (R208). -/
theorem spiOpen_brought {lev : Byte} (hlev : spiIdleVal u.spiMode u.spiCsActiveHigh = lev) :
    ∃ m', spiOpen hz u = .ok (BitVec.ofNat 16 (clkDivisorFor s.par s.chan.sup.enh hz))
      { s.idled m' (d.writes [clockCmds s.par s.chan.sup.enh hz, [0x85, 0x80, lev, 0x0B]]) lev with
        ch := .opened, proto := .spi } := by
  obtain ⟨m', hpins⟩ := clockThenPins_brought (s := s) (m := m) (hz := hz) hd hwf hcap lev fun a _ x =>
    .ok a { x with ch := .opened, proto := .spi }
  exact ⟨m', by rw [spiOpen, hcommon, Res.ok_bind, hlev, hpins]⟩

/-- The body of I2C.OPEN: 3-phase clocking with the clock, then the idle bus (R209). -/
theorem i2cOpen_brought (hrep : 0 < s.par.i2cRepeat) (hqcap : 4 + 3 * s.par.i2cRepeat ≤ s.par.qcap) {f : Nat}
    (hf : i2cHertz s.par s.i2cThreePhase hz = f) :
    ∃ m', i2cOpen hz u = .ok (BitVec.ofNat 16 (clkDivisorFor s.par s.chan.sup.enh f))
      { s.brought m' (d.writes [(i2cPhase3 s.i2cThreePhase).flatten ++ clockCmds s.par s.chan.sup.enh f,
          busSetUp s.par s.chan.sup.od]) with
        plVal := busIdle s.chan.sup.od, plDir := busIdle s.chan.sup.od, ch := .opened, proto := .i2c } := by
  have hph3 : (i2cPhase3 s.i2cThreePhase).flatten.length ≤ 1 := by cases s.i2cThreePhase <;> decide
  have hclk := clockCmds_length s.par s.chan.sup.enh f
  generalize hbs : (i2cPhase3 s.i2cThreePhase).flatten = bs at hph3 ⊢
  have hfit : (bs ++ clockCmds s.par s.chan.sup.enh f).length ≤ s.par.qcap := by rw [List.length_append]; omega
  generalize hcs : bs ++ clockCmds s.par s.chan.sup.enh f = cs at hfit ⊢
  obtain ⟨m₁, hclock⟩ := State.sent_writes (s := s.brought m d) hd d.writes_nil cs
  obtain ⟨m₂, hbus⟩ := State.sent_writes (s := s.brought m₁ (d.writes [cs])) hd rfl
    (busSetUp (s.brought m₁ (d.writes [cs])).par (s.brought m₁ (d.writes [cs])).cap.od)
  have hemit : emitAll (i2cPhase3 s.i2cThreePhase) (s.brought m d) = .ok () ((s.brought m d).append bs) := by
    rw [emitAll_ok _ _ (by rw [hbs]; show 0 + bs.length ≤ s.par.qcap; omega), hbs]
  have hconf : clkConfigure f ((s.brought m d).append bs)
      = .ok (BitVec.ofNat 16 (clkDivisorFor s.par s.chan.sup.enh f)) (s.brought m₁ (d.writes [cs])) :=
    (clkConfigure_append (s := s.brought m d) f hwf rfl (Chan.accepts_of_last hd) (by exact hcs ▸ hfit)).trans
      (congrArg (Res.ok _) ((congrArg (State.sent _) hcs).trans hclock))
  have hidle := busIdle_sent (s := s.brought m₁ (d.writes [cs])) (f := fun _ y =>
    .ok (BitVec.ofNat 16 (clkDivisorFor s.par s.chan.sup.enh f)) { y with ch := .opened, proto := .i2c })
    rfl hrep hqcap (Chan.accepts_of_last hd) rfl rfl
  rw [hbus] at hidle
  refine ⟨m₂, ?_⟩
  rw [i2cOpen, hcommon, Res.ok_bind]
  refine (congrArg (Res.bind · _) hemit).trans ?_
  rw [Res.ok_bind]
  refine (congrArg (Res.bind · _) ((congrArg (clkConfigure · _) hf).trans hconf)).trans ?_
  rw [Res.ok_bind]
  exact hidle

end Bodies

/-! ## The engine works through the writes (R260 to R274) -/

section Engine

variable {c d : Chan} {rest : List Byte}

theorem Chan.Sets.settle_eng {e : Engine} (h : c.Sets [] e d) : c.settle.eng = e := by
  rw [h.settles, Chan.settle_nil h.tx, h.eng]

theorem Chan.sets_setDiv {v : Divisor} (htx : c.tx = encodeCmd (.setDiv v) ++ rest) :
    ∃ d, c.Sets rest { c.eng with divisor := v } d :=
  Chan.sets_cmd (setDiv_readsBack v) htx ⟨_, _, _, rfl⟩

theorem Chan.sets_loopOff (htx : c.tx = encodeCmd .loopOff ++ rest) :
    ∃ d, c.Sets rest { c.eng with loopback := false } d :=
  Chan.sets_cmd NoargOp.loopOff.instr_readsBack htx ⟨_, _, _, rfl⟩

theorem Chan.sets_setLow {v dir : Byte} (htx : c.tx = encodeCmd (.setLow v dir) ++ rest) :
    ∃ d, c.Sets rest { c.eng with lowVal := v, lowDir := dir } d := by
  obtain ⟨t, n, hcmd⟩ := engCmd_setLow_spec v dir { c with tx := rest }
  exact Chan.sets_cmd (PsetOp.instr_readsBack .low v dir) htx ⟨t, _, n, hcmd⟩

theorem Chan.sets_odCfg {l h : Byte} (hod : c.sup.od = true) (htx : c.tx = encodeCmd (.odCfg l h) ++ rest) :
    ∃ d, c.Sets rest { c.eng with odLow := l, odHigh := h } d := by
  have hopen : ({ c with tx := rest } : Chan).sup.opens .openDrain = true := hod
  obtain ⟨t, n, hmove⟩ := Chan.movePins_spec { c with tx := rest } { c.eng with odLow := l, odHigh := h }
  have hgate := Chan.gated_open hopen Config.opmap.odCfg [l, h] fun d =>
    d.movePins { d.eng with odLow := l, odHigh := h }
  exact Chan.sets_cmd (odCfg_readsBack l h) htx ⟨t, _, n, hgate.trans hmove⟩

/-- The clock change puts its divisor in force; the prescaler is an enhanced chip's (R120, R121). -/
theorem Chan.sets_clockCmds {par : Config.Params} {hz : Nat} (htx : c.tx = clockCmds par c.sup.enh hz ++ rest) :
    ∃ b d, c.Sets rest { c.eng with div5 := b, divisor := BitVec.ofNat 16 (clkDivisorFor par c.sup.enh hz) } d := by
  cases henh : c.sup.enh with
  | false =>
    rw [henh] at htx
    obtain ⟨d, hd⟩ := Chan.sets_setDiv (by rw [htx]; rfl)
    exact ⟨c.eng.div5, d, hd⟩
  | true =>
    rw [henh, clockCmds, if_pos rfl, List.append_assoc] at htx
    obtain ⟨b, d₁, h₁⟩ : ∃ b d₁, c.Sets (encodeCmd (.setDiv (BitVec.ofNat 16 (clkDivisorFor par true hz))) ++ rest)
        { c.eng with div5 := b } d₁ := by
      by_cases hlo : par.fLo < hz
      · rw [if_pos hlo] at htx
        exact ⟨false, Chan.sets_div5Off henh htx⟩
      · rw [if_neg hlo] at htx
        exact ⟨true, Chan.sets_div5On henh htx⟩
    obtain ⟨d₂, h₂⟩ := Chan.sets_setDiv h₁.tx
    rw [h₁.eng] at h₂
    exact ⟨b, d₂, h₁.trans h₂⟩

/-- LOOP_OFF and one pin-set (R207, R208). -/
theorem Chan.sets_idlePins {v dir : Byte} (htx : c.tx = [0x85, 0x80, v, dir] ++ rest) :
    ∃ d, c.Sets rest { c.eng with loopback := false, lowVal := v, lowDir := dir } d := by
  obtain ⟨d₁, h₁⟩ := Chan.sets_loopOff (rest := encodeCmd (.setLow v dir) ++ rest) htx
  obtain ⟨d₂, h₂⟩ := Chan.sets_setLow h₁.tx
  rw [h₁.eng] at h₂
  exact ⟨d₂, h₁.trans h₂⟩

/-- The clock change and the idle pins, which JTAG.OPEN and SPI.OPEN begin with. -/
theorem Chan.sets_clockThenPins {par : Config.Params} {hz : Nat} {v dir : Byte}
    (htx : c.tx = clockCmds par c.sup.enh hz ++ ([0x85, 0x80, v, dir] ++ rest)) :
    ∃ b d, c.Sets rest { c.eng with
      div5 := b, divisor := BitVec.ofNat 16 (clkDivisorFor par c.sup.enh hz), loopback := false, lowVal := v,
      lowDir := dir } d := by
  obtain ⟨b, d₁, h₁⟩ := Chan.sets_clockCmds htx
  obtain ⟨d₂, h₂⟩ := Chan.sets_idlePins h₁.tx
  rw [h₁.eng] at h₂
  exact ⟨b, d₂, h₁.trans h₂⟩

theorem Chan.sets_phase3 {b : Bool} (henh : b = true → c.sup.enh = true)
    (htx : c.tx = (i2cPhase3 b).flatten ++ rest) :
    ∃ d, c.Sets rest { c.eng with threePhase := c.eng.threePhase || b } d := by
  cases b with
  | false => exact ⟨c, rfl, by rw [← show c.tx = rest from htx, Bool.or_false]⟩
  | true => exact (Bool.or_true _).symm ▸ Chan.sets_ph3On (henh rfl) htx

theorem Chan.sets_drain {od : Bool} (hod : od = true → c.sup.od = true)
    (htx : c.tx = (i2cDrain od).flatten ++ rest) :
    ∃ l h d, c.Sets rest { c.eng with odLow := l, odHigh := h } d := by
  cases od with
  | false => exact ⟨c.eng.odLow, c.eng.odHigh, c, rfl, by rw [← show c.tx = rest from htx]⟩
  | true => exact ⟨_, _, Chan.sets_odCfg (hod rfl) htx⟩

theorem Chan.sets_holds {v dir : Byte} (n : Nat)
    (htx : c.tx = (List.replicate n [0x80, v, dir]).flatten ++ rest) :
    ∃ v' dir' d, c.Sets rest { c.eng with lowVal := v', lowDir := dir' } d := by
  induction n generalizing c with
  | zero => exact ⟨c.eng.lowVal, c.eng.lowDir, c, rfl, by rw [← show c.tx = rest from htx]⟩
  | succ n ih =>
    rw [List.replicate_succ, List.flatten_cons, List.append_assoc] at htx
    obtain ⟨d₁, h₁⟩ := Chan.sets_setLow htx
    obtain ⟨v', dir', d₂, h₂⟩ := ih h₁.tx
    rw [h₁.eng] at h₂
    exact ⟨v', dir', d₂, h₁.trans h₂⟩

/-- The whole stream of I2C.OPEN: 3-phase clocking is on when asked for (R191, R209). -/
theorem Chan.settle_i2cOpen {par : Config.Params} {b : Bool} {f : Nat} (henh : b = true → c.sup.enh = true)
    (htx : c.tx = (i2cPhase3 b).flatten ++ clockCmds par c.sup.enh f ++ busSetUp par c.sup.od) :
    c.settle.eng.threePhase = (c.eng.threePhase || b) := by
  rw [List.append_assoc] at htx
  obtain ⟨d₁, h₁⟩ := Chan.sets_phase3 henh htx
  obtain ⟨p, d₂, h₂⟩ := Chan.sets_clockCmds (par := par) (hz := f) (rest := busSetUp par c.sup.od)
    (by rw [h₁.sup, h₁.tx])
  obtain ⟨d₃, h₃⟩ := Chan.sets_loopOff (rest := (i2cDrain c.sup.od).flatten
    ++ (List.replicate par.i2cRepeat [0x80, busIdle c.sup.od, busIdle c.sup.od]).flatten)
    (h₂.tx.trans (List.append_assoc _ _ _))
  obtain ⟨l, h, d₄, h₄⟩ := Chan.sets_drain (fun hod => by rw [h₃.sup, h₂.sup, h₁.sup, hod]) h₃.tx
  obtain ⟨v, dir, d₅, h₅⟩ := Chan.sets_holds (rest := []) _ (h₄.tx.trans (List.append_nil _).symm)
  rw [(h₁.trans (h₂.trans (h₃.trans (h₄.trans h₅)))).settle_eng, h₄.eng, h₃.eng, h₂.eng, h₁.eng]

/-- The whole stream of JTAG.OPEN: the last pin-set makes the clock and the select outputs, and the TMS sequence walks a
target that they drive (R150, R207). -/
theorem Chan.settle_jtagOpen {par : Config.Params} {hz n : Nat} (hfive : 5 ≤ n)
    (htx : c.tx = clockCmds par c.sup.enh hz ++ ([0x85, 0x80, 0x08, 0x0B] ++ tmsSeq (List.replicate n true))) :
    c.settle.eng.loopback = false
      ∧ c.settle.eng.divisor = BitVec.ofNat 16 (clkDivisorFor par c.sup.enh hz)
      ∧ (c.eng.odLow.getLsbD clockBit = false → c.eng.odLow.getLsbD selectBit = false → c.settle.target = .reset) := by
  obtain ⟨b, d, hd⟩ := Chan.sets_clockThenPins htx
  obtain ⟨ps, e, hexec, hps⟩ := Chan.executes_tmsSeq (hd.tx.trans (List.append_nil _).symm)
  have hsettle : c.settle = e := by rw [hd.settles, hexec.settles, Chan.settle_nil hexec.tx]
  obtain ⟨-, -, -, -, -, -, -, -, -, -, -, -, -, -, -, hdivisor, -, -, hloopback, -⟩ := hexec.clocks.same
  rw [hsettle]
  refine ⟨hloopback.trans (by rw [hd.eng]), hdivisor.trans (by rw [hd.eng]), fun hclock hselect => ?_⟩
  have hout : (0x0B : Byte).getLsbD clockBit = true ∧ (0x0B : Byte).getLsbD selectBit = true := by decide
  have hdrives : d.eng.drivesTap = true := by
    simp only [hd.eng, Engine.drivesTap, hclock, hselect, hout, Bool.not_false, Bool.and_self]
  rw [hexec.clocks.target hdrives, hps, replay_ones_reset _ hfive]

end Engine

/-! ## The three opens -/

/-- The stream that the engine settles after an open on a quiet channel. -/
theorem Chan.Quiet.tx_writes {d : Chan} (h : d.Quiet) (bss : List (List Byte)) : (d.writes bss).tx = bss.flatten := by
  obtain ⟨-, htx, -⟩ := h
  rw [Chan.writes, htx, List.nil_append]

theorem Chan.Quiet.noTurns {d : Chan} (h : d.Quiet) : d.turns = [] := by
  obtain ⟨hturns, -, -⟩ := h
  exact hturns

theorem Chan.Served.calls_writes {c d : Chan} {calls : List TCall} {e : Engine} (h : c.Served calls e d)
    (bss : List (List Byte)) : (d.writes bss).calls = c.calls ++ calls ++ bss.map .write := by
  rw [Chan.writes, h.calls]

theorem broughtEngine_odLow (enh : Bool) (e : Engine) : (broughtEngine enh e).odLow = e.odLow := by cases enh <;> rfl

theorem broughtEngine_threePhase (e : Engine) : (broughtEngine true e).threePhase = false := rfl

/-- Settles O49: the ones walk the target from wherever it was. -/
theorem jtagOpenBringsUpTheTap : Obligations.JtagOpenBringsUpTheTap := by
  intro s hz hready hfive hfit
  obtain ⟨-, -, hmpsse, hcap, hwf⟩ := id hready
  obtain ⟨u, m, d, hcommon, hd, -, -, hexec⟩ := OpenKind.exec_ready .jtag hz hready fun d hsup =>
    check_eq_none.2 (by rw [State.withChan_chan, hsup, hmpsse])
  have hne : List.replicate s.par.resetPulses true ≠ [] := by simpa using (by omega : s.par.resetPulses ≠ 0)
  obtain ⟨m', hbody⟩ := jtagOpen_brought (hz := hz.toNat) hcommon hd.quiet.noTurns hwf hcap rfl hne hfit
  generalize hbss : [clockCmds s.par s.chan.sup.enh hz.toNat, [0x85, 0x80, 0x08, 0x0B],
    tmsSeq (List.replicate s.par.resetPulses true)] = bss at hbody ⊢
  have hsup : (d.writes bss).sup = s.chan.sup := hd.sup
  have heng : (d.writes bss).eng = broughtEngine s.chan.sup.enh s.chan.eng := hd.eng
  obtain ⟨hloopback, hdivisor, htarget⟩ := Chan.settle_jtagOpen (c := d.writes bss) (par := s.par)
    (hz := hz.toNat) hfive (by rw [hd.quiet.tx_writes, hsup, ← hbss]; simp)
  rw [hsup] at hdivisor
  rw [heng, broughtEngine_odLow] at htarget
  refine ⟨_, hexec _ _ hbody, rfl, ?_, hloopback, hdivisor, htarget⟩
  exact (hd.calls_writes bss).trans (by rw [← hbss, List.append_assoc _ _ (syncCalls _)]; rfl)

/-- The idle levels are a sum: they have no bit in common (R31, R208). -/
theorem spiIdleVal_eq {mode : SpiMode} (h : spiModeSupported mode = true) (activeHigh : Bool) :
    spiIdleVal mode activeHigh = (if mode = .m2 then 0x01 else 0x00) + (if activeHigh then 0x00 else 0x08) := by
  cases mode
  case m0 | m2 => cases activeHigh <;> rfl
  case m1 | m3 => cases h

/-- Settles O50: the last pin-set is the one the engine ends with. -/
theorem spiOpenSetsThePinsIdle : Obligations.SpiOpenSetsThePinsIdle := by
  intro s hz v hready hmode hv
  obtain ⟨-, -, hmpsse, hcap, hwf⟩ := id hready
  obtain ⟨u, m, d, hcommon, hd, hspi, hhigh, hexec⟩ := OpenKind.exec_ready .spi hz hready fun d hsup =>
    orElse_eq_none.2 ⟨check_eq_none.2 (by rw [State.withChan_chan, hsup, hmpsse]), check_eq_none.2 hmode⟩
  obtain ⟨m', hbody⟩ := spiOpen_brought (hz := hz.toNat) hcommon hd.quiet.noTurns hwf hcap (lev := v)
    (by rw [hspi, hhigh, spiIdleVal_eq hmode, hv])
  generalize hbss : [clockCmds s.par s.chan.sup.enh hz.toNat, [0x85, 0x80, v, 0x0B]] = bss at hbody ⊢
  have hsup : (d.writes bss).sup = s.chan.sup := hd.sup
  obtain ⟨b, e, he⟩ := Chan.sets_clockThenPins (c := d.writes bss) (par := s.par) (hz := hz.toNat) (v := v)
    (dir := 0x0B) (rest := []) (by rw [hd.quiet.tx_writes, hsup, ← hbss]; simp)
  have heng := he.settle_eng
  refine ⟨_, hexec _ _ hbody, rfl, ?_, congrArg Engine.loopback heng, congrArg Engine.lowVal heng,
    congrArg Engine.lowDir heng⟩
  exact (hd.calls_writes bss).trans (by rw [← hbss, List.append_assoc _ _ (syncCalls _)]; rfl)

/-- Settles O51: the baseline has switched 3-phase clocking off, and only PH3_ON switches it on. -/
theorem i2cOpenLeavesTheBusIdle : Obligations.I2cOpenLeavesTheBusIdle := by
  intro s hz f p hready henh hrep hqcap hf hp
  obtain ⟨-, -, hmpsse, hcap, hwf⟩ := id hready
  obtain ⟨u, m, d, hcommon, hd, -, -, hexec⟩ := OpenKind.exec_ready .i2c hz hready fun d hsup => by
    refine orElse_eq_none.2 ⟨check_eq_none.2 (by rw [State.withChan_chan, hsup, hmpsse]), check_eq_none.2 ?_⟩
    cases hphase : s.i2cThreePhase
    · simp [State.withChan, hphase]
    · simp [State.withChan, hphase, hsup, henh hphase]
  obtain ⟨m', hbody⟩ := i2cOpen_brought (hz := hz.toNat) hcommon hd.quiet.noTurns hwf hcap hrep hqcap hf.symm
  rw [show busIdle s.chan.sup.od = p from hp.symm] at hbody
  generalize hbss : [(i2cPhase3 s.i2cThreePhase).flatten ++ clockCmds s.par s.chan.sup.enh f,
    busSetUp s.par s.chan.sup.od] = bss at hbody
  have hsup : (d.writes bss).sup = s.chan.sup := hd.sup
  have hphase := Chan.settle_i2cOpen (c := d.writes bss) (par := s.par) (f := f)
    (by rw [hsup]; exact henh) (by rw [hd.quiet.tx_writes, hsup, ← hbss]; simp)
  refine ⟨_, hexec _ _ hbody, rfl, ?_, fun he => hphase.trans ?_⟩
  · refine (hd.calls_writes bss).trans ?_
    rw [← hbss, busSetUp, show busIdle s.chan.sup.od = p from hp.symm, List.append_assoc _ _ (syncCalls _)]
    cases s.i2cThreePhase <;> cases s.chan.sup.od <;> rfl
  · rw [show (d.writes bss).eng = _ from hd.eng, he, broughtEngine_threePhase, Bool.false_or]

end Sys2Proof.Machine

/-! PROOF. The data shifts of the engine (spec/47_mpsse_shift_opcodes.md R221, R223 to R246; 30_encoding.md R84, R96). A
byte-oriented shift is one run of data pulses over all its bits, and its response bytes hold the samples of that run; a
bit-oriented shift is a run of its first bits. `Chan.ShiftsData` says what such a run, and the gathering after it, does to
the channel. -/

namespace Sys2Proof.Machine

/-! ## A run of data pulses (R221) -/

/-- The channel `e` is `c` after a data shift of these bits, with the pulses `ps` and the response bytes `rs`: TMS is held,
the pins stay at the last levels, and the streams and settings are as before. -/
structure Chan.ShiftsData (c : Chan) (w r : Option Edge) (bits : List Bool) (ps : List Pulse) (rs : List Byte)
    (e : Chan) : Prop where
  same : c.SameStreams e
  clocked : c.Clocked w r (bits.map fun b => (b, c.eng.tmsLevel)) e ps
  pins : c.PinsAfter e (bits.map fun b => (b, c.eng.tmsLevel))
  gathered : e.eng.gathered = c.eng.gathered ++ rs

theorem Chan.dataPulses_shiftsData (w r : Option Edge) (bits : List Bool) (c : Chan) :
    ∃ ps, c.ShiftsData w r bits ps [] (c.dataPulses w r bits).2 ∧ (c.dataPulses w r bits).1 = samplesOf ps := by
  obtain ⟨ps, hclk, hsamples, hsame, hgath, hlow⟩ := c.pulses_spec w r (bits.map fun b => (b, c.eng.tmsLevel))
  exact ⟨ps, ⟨hsame, hclk, Chan.pinsAfter_of_lowVal hlow, hgath.trans (List.append_nil _).symm⟩, hsamples⟩

section ShiftsData

variable {c e : Chan} {w r : Option Edge} {bits : List Bool} {ps : List Pulse}

theorem Chan.ShiftsData.gather (h : c.ShiftsData w r bits ps [] e) (rs : List Byte) :
    c.ShiftsData w r bits ps rs (e.gather rs) where
  same := h.same.trans (Chan.gather_same rs e)
  clocked := h.clocked
  pins := h.pins
  gathered := by rw [Chan.gather_eng, h.gathered, List.append_nil]

theorem Chan.ShiftsData.gatherBits (h : c.ShiftsData w r bits ps [] e) (ord : BitOrder) (samples : List Bool) :
    ∃ stale, c.ShiftsData w r bits ps [capture ord stale samples] (e.gatherBits ord samples) := by
  obtain ⟨stale, hresp⟩ := e.gatherBits_gathered ord samples
  exact ⟨stale, h.same.trans (Chan.gatherBits_same ord samples e), h.clocked, h.pins,
    by rw [hresp, h.gathered, List.append_nil]⟩

/-- The counter of free values a bit count may take from plays no part in the shift (log entry 16). -/
theorem Chan.ShiftsData.of_fresh {n : Nat} {rs : List Byte}
    (h : Chan.ShiftsData { c with fresh := n } w r bits ps rs e) : c.ShiftsData w r bits ps rs e :=
  ⟨h.same, h.clocked, h.pins, h.gathered⟩

/-- A data shift that reads takes one sample a bit. -/
theorem Chan.ShiftsData.samplesOf_length {edge : Edge} {rs : List Byte}
    (h : c.ShiftsData w (some edge) bits ps rs e) : (samplesOf ps).length = bits.length := by
  rw [h.clocked.samplesOf_length, List.length_map]

end ShiftsData

/-- A data shift of a list of bits is the shift of its front and then of the rest: TMS is held in between. -/
theorem Chan.dataPulses_append (w r : Option Edge) (xs ys : List Bool) (c : Chan) :
    c.dataPulses w r (xs ++ ys) =
      ((c.dataPulses w r xs).1 ++ ((c.dataPulses w r xs).2.dataPulses w r ys).1,
        ((c.dataPulses w r xs).2.dataPulses w r ys).2) := by
  have hlevel : (c.dataPulses w r xs).2.eng.tmsLevel = c.eng.tmsLevel := (c.dataPulses_held w r xs).level
  rw [Chan.dataPulses, List.map_append, Chan.pulses_append, Chan.dataPulses.eq_def w r ys, hlevel, Chan.dataPulses]

theorem Chan.dataPulses_samples_length (w : Option Edge) (edge : Edge) (bits : List Bool) (c : Chan) :
    (c.dataPulses w (some edge) bits).1.length = bits.length := by
  rw [Chan.dataPulses, Chan.pulses_samples_length, List.length_map]

/-! ## The response bytes of a byte-oriented shift (R96) -/

/-- A whole byte is the bit-oriented response of eight samples. -/
theorem bitPos_eight (ord : BitOrder) (i : Nat) : bitPos ord 8 i = bytePos ord i := by
  cases ord <;> simp [bitPos, bytePos]

/-- A byte that captures eight samples, in front of bytes that hold the later ones. -/
theorem BytesHold.capture_cons {ord : BitOrder} {xs ys : List Bool} {rs : List Byte} (stale : Byte)
    (hxs : xs.length = 8) (h : BytesHold ord ys rs) : BytesHold ord (xs ++ ys) (capture ord stale xs :: rs) := by
  obtain ⟨hlen, hbits⟩ := h
  obtain ⟨-, hfirst⟩ := capture_bitsHold ord stale xs hxs.le
  refine ⟨by rw [List.length_append, List.length_cons]; omega, fun j hj b hb => ?_⟩
  cases j with
  | zero =>
    rw [List.getD_append _ _ _ _ (by omega)]
    simpa [byteOf, hxs, bitPos_eight] using hfirst b (by omega)
  | succ j =>
    have hplace : 8 * (j + 1) + b - xs.length = 8 * j + b := by omega
    rw [List.getD_append_right _ _ _ _ (by omega), hplace]
    exact hbits j (Nat.lt_of_succ_lt_succ hj) b hb

/-- The byte captured from eight data pulses, in front of bytes that hold the samples of the later pulses. -/
theorem Chan.dataPulses_bytesHold_cons {ord : BitOrder} {w : Option Edge} {edge : Edge} {xs ys : List Bool} {c : Chan}
    {rs : List Byte} (hxs : xs.length = 8)
    (h : BytesHold ord ((c.dataPulses w (some edge) xs).2.dataPulses w (some edge) ys).1 rs) :
    BytesHold ord (c.dataPulses w (some edge) (xs ++ ys)).1
      (capture ord 0 (c.dataPulses w (some edge) xs).1 :: rs) := by
  rw [Chan.dataPulses_append]
  exact h.capture_cons 0 ((c.dataPulses_samples_length w edge xs).trans hxs)

/-! ## Byte-oriented shifts (R223 to R226, R231 to R234, R239 to R242) -/

theorem Chan.shiftBytes_dataPulses (ord : BitOrder) (w r : Option Edge) (ds : List Byte) (c : Chan) :
    (c.shiftBytes ord w r ds).2 = (c.dataPulses w r (ds.flatMap (bitsOf ord))).2 := by
  induction ds generalizing c with
  | nil => rfl
  | cons d ds ih => rw [List.flatMap_cons, Chan.dataPulses_append, Chan.shiftBytes, ih]

theorem Chan.shiftBytes_bytesHold (ord : BitOrder) (w : Option Edge) (edge : Edge) (ds : List Byte) (c : Chan) :
    BytesHold ord (c.dataPulses w (some edge) (ds.flatMap (bitsOf ord))).1 (c.shiftBytes ord w (some edge) ds).1 := by
  induction ds generalizing c with
  | nil => exact ⟨rfl, nofun⟩
  | cons d ds ih =>
    rw [List.flatMap_cons, Chan.shiftBytes]
    exact Chan.dataPulses_bytesHold_cons (bitsOf_length ord d) (ih _)

theorem Chan.outBytes_shiftsData (ord : BitOrder) (w : Edge) (ds : List Byte) (c : Chan) :
    ∃ ps, c.ShiftsData (some w) none (ds.flatMap (bitsOf ord)) ps [] (c.outBytes ord w ds) := by
  obtain ⟨ps, hshift, -⟩ := c.dataPulses_shiftsData (some w) none (ds.flatMap (bitsOf ord))
  rw [← Chan.shiftBytes_dataPulses] at hshift
  exact ⟨ps, hshift⟩

theorem Chan.ioBytes_shiftsData (ord : BitOrder) (w r : Edge) (ds : List Byte) (c : Chan) :
    ∃ ps rs, c.ShiftsData (some w) (some r) (ds.flatMap (bitsOf ord)) ps rs (c.ioBytes ord w r ds)
      ∧ rs.length = ds.length ∧ BytesHold ord (samplesOf ps) rs := by
  obtain ⟨ps, hshift, hsamples⟩ := c.dataPulses_shiftsData (some w) (some r) (ds.flatMap (bitsOf ord))
  have hhold := c.shiftBytes_bytesHold ord (some w) r ds
  rw [hsamples] at hhold
  rw [← Chan.shiftBytes_dataPulses] at hshift
  exact ⟨ps, _, hshift.gather _, c.shiftBytes_length ord (some w) (some r) ds, hhold⟩

/-- Each byte-oriented writing shift has the order and the edges of R93. -/
theorem engCmd_bytesW_shiftsData (o : WriteOp) (ds : List Byte) (c : Chan) :
    ∃ ps rs, c.ShiftsData (some (writeEdge o)) (writeReads o) (ds.flatMap (bitsOf (writeOrder o))) ps rs
        (engCmd (o.bytesInstr ds) c)
      ∧ (writeReads o = none → rs = [])
      ∧ (writeReads o ≠ none → rs.length = ds.length ∧ BytesHold (writeOrder o) (samplesOf ps) rs) := by
  cases o
  case outWpMsb | outWnMsb | outWpLsb | outWnLsb =>
    obtain ⟨ps, hshift⟩ := c.outBytes_shiftsData _ _ ds
    exact ⟨ps, [], hshift, fun _ => rfl, fun h => absurd rfl h⟩
  case ioWnRpMsb | ioWpRnMsb | ioWnRpLsb | ioWpRnLsb =>
    obtain ⟨ps, rs, hshift, hresp⟩ := c.ioBytes_shiftsData _ _ _ ds
    exact ⟨ps, rs, hshift, nofun, fun _ => hresp⟩

/-- Settles O5: a byte shift that writes is one run of data pulses. -/
theorem byteWritesClockTheirBits : Obligations.ByteWritesClockTheirBits := fun o ds s => by
  obtain ⟨ps, rs, hshift, hout, hio⟩ := engCmd_bytesW_shiftsData o ds s.chan
  exact ⟨_, ps, rs, exec_command (hostOp_bytesW o ds) s, rfl, hshift.same, hshift.clocked, hshift.pins,
    hshift.gathered, hout, hio⟩

/-! ## Bit-oriented shifts (R227 to R230, R235 to R238, R243 to R246) -/

/-- A length field in range gives its count, any other some count from 1 to 8; at most a free value is used (R84, log
entry 16). -/
theorem Chan.bitCount_eq (k : Nat) (c : Chan) :
    ∃ j n, c.bitCount k = (j, { c with fresh := n }) ∧ 1 ≤ j ∧ j ≤ 8 ∧ (1 ≤ k ∧ k ≤ 8 → j = k) := by
  by_cases h : 1 ≤ k ∧ k ≤ 8
  · exact ⟨k, c.fresh, c.bitCount_ok h, h.1, h.2, fun _ => rfl⟩
  · exact ⟨_, _, if_neg h, Nat.le_add_left .., (Config.freeBitCount c.fresh).isLt, fun hk => absurd hk h⟩

/-- A run of at most eight data pulses and the response byte gathered from its samples. -/
theorem Chan.dataPulses_gatherBits (ord : BitOrder) (w : Option Edge) (edge : Edge) {bits : List Bool}
    (hbits : bits.length ≤ 8) (c : Chan) :
    ∃ ps b, c.ShiftsData w (some edge) bits ps [b]
        ((c.dataPulses w (some edge) bits).2.gatherBits ord (c.dataPulses w (some edge) bits).1)
      ∧ BitsHold ord bits.length (samplesOf ps) b := by
  obtain ⟨ps, hshift, hsamples⟩ := c.dataPulses_shiftsData w (some edge) bits
  obtain ⟨stale, hgather⟩ := hshift.gatherBits ord (samplesOf ps)
  rw [hsamples]
  refine ⟨ps, _, hgather, ?_⟩
  rw [← hshift.samplesOf_length] at hbits ⊢
  exact capture_bitsHold ord stale (samplesOf ps) hbits

theorem Chan.outBits_shiftsData (ord : BitOrder) (w : Edge) (k : Nat) (d : Byte) (c : Chan) :
    ∃ ps j, 1 ≤ j ∧ j ≤ 8 ∧ (1 ≤ k ∧ k ≤ 8 → j = k)
      ∧ c.ShiftsData (some w) none ((bitsOf ord d).take j) ps [] (c.outBits ord w k d) := by
  obtain ⟨j, n, hcount, h1, h8, hk⟩ := c.bitCount_eq k
  obtain ⟨ps, hshift, -⟩ := Chan.dataPulses_shiftsData (some w) none ((bitsOf ord d).take j) { c with fresh := n }
  rw [Chan.outBits, hcount]
  exact ⟨ps, j, h1, h8, hk, hshift.of_fresh⟩

theorem Chan.ioBits_shiftsData (ord : BitOrder) (w r : Edge) (k : Nat) (d : Byte) (c : Chan) :
    ∃ ps b j, 1 ≤ j ∧ j ≤ 8 ∧ (1 ≤ k ∧ k ≤ 8 → j = k)
      ∧ c.ShiftsData (some w) (some r) ((bitsOf ord d).take j) ps [b] (c.ioBits ord w r k d)
      ∧ BitsHold ord j (samplesOf ps) b := by
  obtain ⟨j, n, hcount, h1, h8, hk⟩ := c.bitCount_eq k
  have hlen := c.bitsOf_take_length ord d k
  rw [hcount] at hlen
  obtain ⟨ps, b, hshift, hhold⟩ := Chan.dataPulses_gatherBits ord (some w) r (hlen.trans_le h8) { c with fresh := n }
  rw [hlen] at hhold
  rw [Chan.ioBits, hcount]
  exact ⟨ps, b, j, h1, h8, hk, hshift.of_fresh, hhold⟩

/-- Each bit-oriented writing shift has the order and the edges of R93. -/
theorem engCmd_bitsW_shiftsData (o : WriteOp) (k : Nat) (d : Byte) (c : Chan) :
    ∃ ps rs j, 1 ≤ j ∧ j ≤ 8 ∧ (1 ≤ k ∧ k ≤ 8 → j = k)
      ∧ c.ShiftsData (some (writeEdge o)) (writeReads o) ((bitsOf (writeOrder o) d).take j) ps rs
          (engCmd (o.bitsInstr k d) c)
      ∧ (writeReads o = none → rs = [])
      ∧ (writeReads o ≠ none → ∃ b, rs = [b] ∧ BitsHold (writeOrder o) j (samplesOf ps) b) := by
  cases o
  case outWpMsb | outWnMsb | outWpLsb | outWnLsb =>
    obtain ⟨ps, j, h1, h8, hk, hshift⟩ := c.outBits_shiftsData _ _ k d
    exact ⟨ps, [], j, h1, h8, hk, hshift, fun _ => rfl, fun h => absurd rfl h⟩
  case ioWnRpMsb | ioWpRnMsb | ioWnRpLsb | ioWpRnLsb =>
    obtain ⟨ps, b, j, h1, h8, hk, hshift, hhold⟩ := c.ioBits_shiftsData _ _ _ k d
    exact ⟨ps, [b], j, h1, h8, hk, hshift, nofun, fun _ => ⟨b, rfl, hhold⟩⟩

/-- Settles O6: a bit shift that writes is a run of data pulses over its first bits. -/
theorem bitWritesClockTheirBits : Obligations.BitWritesClockTheirBits := fun o k d s => by
  obtain ⟨ps, rs, j, h1, h8, hk, hshift, hout, hio⟩ := engCmd_bitsW_shiftsData o k d s.chan
  exact ⟨_, ps, rs, j, exec_command (hostOp_bitsW o k d) s, h1, h8, hk, rfl, hshift.same, hshift.clocked, hshift.pins,
    hshift.gathered, hout, hio⟩

/-! ## Shifts that only read: data-out is held (R231 to R238) -/

/-- A data shift of the level that data-out already has changes no pin. -/
theorem Chan.ShiftsData.lowVal_held {c e : Chan} {w r : Option Edge} {n : Nat} {ps : List Pulse} {rs : List Byte}
    (h : c.ShiftsData w r (List.replicate n c.eng.dataOut) ps rs e) (i : Nat) :
    e.eng.lowVal.getLsbD i = c.eng.lowVal.getLsbD i := by
  obtain ⟨hout, htms, hother⟩ := h.pins
  by_cases hdata : i = dataOutBit
  · subst hdata
    refine hout.trans ?_
    cases n <;> simp [List.getLast?_replicate, Engine.dataOut]
  by_cases hselect : i = selectBit
  · subst hselect
    refine htms.trans ?_
    cases n <;> simp [List.getLast?_replicate, Engine.tmsLevel]
  exact hother i hdata hselect

/-- The pulses of a shift that only reads are at the held levels of data-out and TMS. -/
theorem Chan.ShiftsData.clocked_held {c e : Chan} {w r : Option Edge} {n : Nat} {ps : List Pulse} {rs : List Byte}
    (h : c.ShiftsData w r (List.replicate n c.eng.dataOut) ps rs e) :
    c.Clocked w r (List.replicate n (c.eng.dataOut, c.eng.tmsLevel)) e ps := by
  simpa only [List.map_replicate] using h.clocked

/-- Of the engine, what leaves the streams and settings alone can change the low value latch and the gathered bytes only. -/
theorem Chan.SameStreams.eng_eq {c d : Chan} (h : c.SameStreams d) :
    d.eng = { c.eng with gathered := d.eng.gathered, lowVal := d.eng.lowVal } := by
  obtain ⟨-, -, -, -, -, -, -, -, -, -, -, -, -, -, hdiv5, hdivisor, hphase, hadapt, hloop, hodLow, hodHigh, hlowDir,
    hhighVal, hhighDir⟩ := h
  dsimp only
  rw [← hdiv5, ← hdivisor, ← hphase, ← hadapt, ← hloop, ← hodLow, ← hodHigh, ← hlowDir, ← hhighVal, ← hhighDir]

theorem Chan.dataPulses_dataOut_held (w r : Option Edge) (n : Nat) (c : Chan) :
    (c.dataPulses w r (List.replicate n c.eng.dataOut)).2.eng.dataOut = c.eng.dataOut := by
  obtain ⟨ps, hshift, -⟩ := c.dataPulses_shiftsData w r (List.replicate n c.eng.dataOut)
  exact hshift.lowVal_held dataOutBit

/-- The data bits of a byte-oriented read: the first byte's, then the others' at the level the first leaves. -/
theorem Chan.replicate_dataOut_succ (w r : Option Edge) (n : Nat) (c : Chan) :
    List.replicate (8 * (n + 1)) c.eng.dataOut =
      List.replicate 8 c.eng.dataOut
        ++ List.replicate (8 * n) (c.dataPulses w r (List.replicate 8 c.eng.dataOut)).2.eng.dataOut := by
  rw [Chan.dataPulses_dataOut_held, ← List.replicate_add, Nat.mul_succ, Nat.add_comm]

theorem Chan.readBytes_dataPulses (ord : BitOrder) (edge : Edge) (n : Nat) (c : Chan) :
    (c.readBytes ord edge n).2 = (c.dataPulses none (some edge) (List.replicate (8 * n) c.eng.dataOut)).2 := by
  induction n generalizing c with
  | zero => rfl
  | succ n ih => rw [c.replicate_dataOut_succ none (some edge) n, Chan.dataPulses_append, Chan.readBytes, ih]

theorem Chan.readBytes_bytesHold (ord : BitOrder) (edge : Edge) (n : Nat) (c : Chan) :
    BytesHold ord (c.dataPulses none (some edge) (List.replicate (8 * n) c.eng.dataOut)).1
      (c.readBytes ord edge n).1 := by
  induction n generalizing c with
  | zero => exact ⟨rfl, nofun⟩
  | succ n ih =>
    rw [c.replicate_dataOut_succ none (some edge) n, Chan.readBytes]
    exact Chan.dataPulses_bytesHold_cons List.length_replicate (ih _)

theorem Chan.inBytes_shiftsData (ord : BitOrder) (edge : Edge) (n : Nat) (c : Chan) :
    ∃ ps rs, c.ShiftsData none (some edge) (List.replicate (8 * n) c.eng.dataOut) ps rs (c.inBytes ord edge n)
      ∧ rs.length = n ∧ BytesHold ord (samplesOf ps) rs := by
  obtain ⟨ps, hshift, hsamples⟩ := c.dataPulses_shiftsData none (some edge) (List.replicate (8 * n) c.eng.dataOut)
  have hhold := c.readBytes_bytesHold ord edge n
  rw [hsamples] at hhold
  rw [← Chan.readBytes_dataPulses ord] at hshift
  exact ⟨ps, _, hshift.gather _, c.readBytes_length ord edge n, hhold⟩

/-- Each byte-oriented reading shift has the order and the edge of R93. -/
theorem engCmd_bytesR_shiftsData (o : ReadOp) (n : Nat) (c : Chan) :
    ∃ ps rs, c.ShiftsData none (some (readEdge o)) (List.replicate (8 * n) c.eng.dataOut) ps rs
        (engCmd (o.bytesInstr n) c)
      ∧ rs.length = n ∧ BytesHold (readOrder o) (samplesOf ps) rs := by
  cases o <;> exact c.inBytes_shiftsData _ _ n

/-- Settles O7: a byte shift that only reads is one run of data pulses at the held level. -/
theorem byteReadsSampleInOrder : Obligations.ByteReadsSampleInOrder := fun o n s => by
  obtain ⟨ps, rs, hshift, hlen, hhold⟩ := engCmd_bytesR_shiftsData o n s.chan
  have heng := hshift.same.eng_eq
  rw [hshift.gathered] at heng
  exact ⟨_, ps, rs, exec_command (hostOp_bytesR o n) s, rfl, hshift.same, hshift.clocked_held, heng,
    hshift.lowVal_held, hlen, hhold⟩

theorem Chan.inBits_shiftsData (ord : BitOrder) (edge : Edge) (k : Nat) (c : Chan) :
    ∃ ps b j, 1 ≤ j ∧ j ≤ 8 ∧ (1 ≤ k ∧ k ≤ 8 → j = k)
      ∧ c.ShiftsData none (some edge) (List.replicate j c.eng.dataOut) ps [b] (c.inBits ord edge k)
      ∧ BitsHold ord j (samplesOf ps) b := by
  obtain ⟨j, n, hcount, h1, h8, hk⟩ := c.bitCount_eq k
  have hlen : (List.replicate j c.eng.dataOut).length = j := List.length_replicate
  obtain ⟨ps, b, hshift, hhold⟩ := Chan.dataPulses_gatherBits ord none edge (hlen.trans_le h8) { c with fresh := n }
  rw [hlen] at hhold
  rw [Chan.inBits, hcount]
  exact ⟨ps, b, j, h1, h8, hk, hshift.of_fresh, hhold⟩

/-- Each bit-oriented reading shift has the order and the edge of R93. -/
theorem engCmd_bitsR_shiftsData (o : ReadOp) (k : Nat) (c : Chan) :
    ∃ ps b j, 1 ≤ j ∧ j ≤ 8 ∧ (1 ≤ k ∧ k ≤ 8 → j = k)
      ∧ c.ShiftsData none (some (readEdge o)) (List.replicate j c.eng.dataOut) ps [b] (engCmd (o.bitsInstr k) c)
      ∧ BitsHold (readOrder o) j (samplesOf ps) b := by
  cases o <;> exact c.inBits_shiftsData _ _ k

/-- Settles O8: a bit shift that only reads is a run of data pulses at the held level. -/
theorem bitReadsSampleInOrder : Obligations.BitReadsSampleInOrder := fun o k s => by
  obtain ⟨ps, b, j, h1, h8, hk, hshift, hhold⟩ := engCmd_bitsR_shiftsData o k s.chan
  exact ⟨_, ps, b, j, exec_command (hostOp_bitsR o k) s, h1, h8, hk, rfl, hshift.same, hshift.clocked_held,
    hshift.lowVal_held, hshift.gathered, hhold⟩

end Sys2Proof.Machine

/-! PROOF. The pin, mode and flow commands of the engine (spec/48_mpsse_pin_config_opcodes.md R260 to R275;
70_reset_and_hazards.md R329; 20_memory.md R69). A pin-set and an open-drain change are one `Chan.movePins`, whose edge
of TCK decides what the target sees; a pin read is the byte of the eight pins and a run of pulses at the held levels. -/

namespace Sys2Proof.Machine

/-! ## Switches (R264 to R273, R275) -/

/-- Settles O14: each is one command of the engine. -/
theorem engineSwitches : Obligations.EngineSwitches := fun s d =>
  ⟨exec_command (i := .loopOn) rfl s, exec_command (i := .loopOff) rfl s, exec_command (i := .setDiv d) rfl s,
    exec_command (i := .sendImm) rfl s, exec_command (i := .bogus) rfl s⟩

/-! ## An edge of TCK outside a clock pulse (R329) -/

@[simp] theorem Chan.movePins_eng (c : Chan) (e : Engine) : (c.movePins e).eng = e := by
  obtain ⟨t, n, h⟩ := c.movePins_spec e
  rw [h]

/-- A change of the pins changes the engine as told, and else the target and the counter of free values at most. -/
theorem Chan.movePins_eq (c : Chan) (e : Engine) :
    c.movePins e = { c with eng := e, target := (c.movePins e).target, fresh := (c.movePins e).fresh } := by
  obtain ⟨t, n, h⟩ := c.movePins_spec e
  rw [h]

/-- The target sees nothing when TCK ends driven low, was driven high, or floats before and after. -/
theorem Chan.movePins_still {c : Chan} {e : Engine} (h : e.lowLevel clockBit = some false
      ∨ c.eng.lowLevel clockBit = some true ∨ (c.eng.lowLevel clockBit = none ∧ e.lowLevel clockBit = none)) :
    (c.movePins e).target = c.target ∧ (c.movePins e).fresh = c.fresh := by
  unfold Chan.movePins
  obtain hlow | hhigh | ⟨hbefore, hafter⟩ := h
  · rw [hlow]
    rcases c.eng.lowLevel clockBit with _ | _ | _ <;> exact ⟨rfl, rfl⟩
  · rw [hhigh]
    exact ⟨rfl, rfl⟩
  · rw [hbefore, hafter]
    exact ⟨rfl, rfl⟩

/-- A rising edge of TCK with TMS standing still is one clock of the target (R130). -/
theorem Chan.movePins_rising {c : Chan} {e : Engine} {b : Bool} (hlow : c.eng.lowLevel clockBit = some false)
    (hhigh : e.lowLevel clockBit = some true) (hbefore : c.eng.lowLevel selectBit = some b)
    (hafter : e.lowLevel selectBit = some b) :
    (c.movePins e).target = c.target.next b ∧ (c.movePins e).fresh = c.fresh := by
  simp only [Chan.movePins, hlow, hhigh, hbefore, hafter, if_true, and_self]

/-! ## SET_LOW and SET_HIGH (R260, R262) -/

/-- Settles O12: SET_HIGH by evaluation, SET_LOW by the edge of TCK. -/
theorem pinSetsLatchBothBytes : Obligations.PinSetsLatchBothBytes := by
  intro val dir s
  have hmove := Chan.movePins_eq { s.chan with wire := s.chan.wire ++ [.low val dir] }
    { s.chan.eng with lowVal := val, lowDir := dir }
  refine ⟨exec_command (i := .setHigh val dir) rfl s, _, exec_command (i := .setLow val dir) rfl s,
    congrArg (fun c => { s with chan := c }) hmove, fun hstill => ?_, fun b hlow hhigh hbefore hafter => ?_⟩
  · simp only [engCmd, cmdSetLow, Chan.pinsLow, Chan.movePins_eng] at hstill
    exact Chan.movePins_still hstill
  · simp only [engCmd, cmdSetLow, Chan.pinsLow, Chan.movePins_eng] at hhigh hafter
    exact Chan.movePins_rising hlow hhigh hbefore hafter

/-! ## The gated commands (R267 to R272, R274) -/

/-- A command behind an open gate acts. -/
theorem next_gated_open {s : State} {g : Gate} (h : s.chan.sup.opens g = true) (op : Byte) (operands : List Byte)
    (act : Chan → Chan) :
    (.next { s with chan := s.chan.gated g op operands act } : Host.Outcome State Fault Refusal) =
      .next { s with chan := act s.chan } := by
  rw [Chan.gated_open h]

theorem drivenMask_getLsbD (val dir od : Byte) {i : Nat} (hi : i < 8) :
    (drivenMask val dir od).getLsbD i = (dir.getLsbD i && !(od.getLsbD i && val.getLsbD i)) := by
  rw [drivenMask, BitVec.getLsbD_and, BitVec.getLsbD_not, BitVec.getLsbD_and, decide_eq_true hi, Bool.true_and]

/-- Which pins are driven low does not depend on the open-drain masks: only a pin at value 1 floats (R274). -/
theorem Engine.lowLevel_eq_low {e : Engine} {i : Nat} (hi : i < 8) :
    e.lowLevel i = some false ↔ e.lowDir.getLsbD i = true ∧ e.lowVal.getLsbD i = false := by
  rw [Engine.lowLevel, drivenMask_getLsbD _ _ _ hi]
  cases e.lowVal.getLsbD i <;> simp

/-- An open-drain change raises TCK from floating only (R274, R329). -/
theorem Chan.movePins_drain_still {c : Chan} {e : Engine} {l h : Byte} (he : e = { c.eng with odLow := l, odHigh := h })
    (hrise : ¬(c.eng.lowLevel clockBit = none ∧ e.lowLevel clockBit = some true)) :
    (c.movePins e).target = c.target ∧ (c.movePins e).fresh = c.fresh := by
  apply Chan.movePins_still
  rcases hbefore : c.eng.lowLevel clockBit with _ | _ | _
  · rcases hafter : e.lowLevel clockBit with _ | _ | _
    · exact .inr (.inr ⟨rfl, rfl⟩)
    · exact .inl rfl
    · exact absurd ⟨hbefore, hafter⟩ hrise
  · have hlow : e.lowLevel clockBit = some false := by
      rw [he]
      exact (Engine.lowLevel_eq_low (by decide)).2 ((Engine.lowLevel_eq_low (e := c.eng) (by decide)).1 hbefore)
    exact .inl hlow
  · exact .inr (.inl rfl)

/-- Settles O15: each command acts behind its open gate. -/
theorem gatedCommandsOnACapableChip : Obligations.GatedCommandsOnACapableChip := by
  intro s
  constructor
  · intro henh
    have hgate : s.chan.sup.opens .enhanced = true := henh
    exact ⟨next_gated_open hgate _ [] _, next_gated_open hgate _ [] _, next_gated_open hgate _ [] _,
      next_gated_open hgate _ [] _, next_gated_open hgate _ [] _, next_gated_open hgate _ [] _⟩
  · intro hod l h
    have hgate : s.chan.sup.opens .openDrain = true := hod
    have hmove := s.chan.movePins_eq { s.chan.eng with odLow := l, odHigh := h }
    refine ⟨_, next_gated_open hgate _ [l, h] _, congrArg (fun c => { s with chan := c }) hmove, fun hrise => ?_⟩
    rw [Chan.movePins_eng] at hrise
    exact Chan.movePins_drain_still rfl hrise

/-! ## GET_LOW and GET_HIGH (R261, R263, R69) -/

/-- A driven pin reads its value, any other the level outside. -/
theorem pinLevels_getLsbD (val dir od ext : Byte) {i : Nat} (hi : i < 8) :
    (pinLevels val dir od ext).getLsbD i
      = if (drivenMask val dir od).getLsbD i then val.getLsbD i else ext.getLsbD i := by
  rw [pinLevels, BitVec.getLsbD_or, BitVec.getLsbD_and, BitVec.getLsbD_and, BitVec.getLsbD_not, decide_eq_true hi]
  cases (drivenMask val dir od).getLsbD i <;> simp

/-- The level outside is the environment's next entry, when there is one; the entry is used up. -/
theorem Chan.outside_eq (c : Chan) :
    (∀ p ∈ c.pins.head?, c.outside.1 = p) ∧ ∃ n, c.outside.2 = { c with pins := c.pins.tail, fresh := n } := by
  unfold Chan.outside
  cases hp : c.pins with
  | nil => exact ⟨nofun, c.fresh + 1, rfl⟩
  | cons p rest => exact ⟨fun q hq => Option.some.inj hq, c.fresh, rfl⟩

/-- The clocks of a pin read are pulses at the held levels, one at least, and the target replays the TMS level. -/
theorem Chan.readClocks_eq (c : Chan) :
    ∃ ps d, ps ≠ [] ∧ c.readClocks = { c with target := d.target, wire := d.wire, fresh := d.fresh }
      ∧ c.Clocked none none (List.replicate ps.length (c.eng.dataOut, c.eng.tmsLevel)) d ps
      ∧ (c.eng.drivesTap = true → d.target = c.target.replay (List.replicate ps.length c.eng.tmsLevel)) := by
  generalize hn : Config.freeReadClocks c.fresh + 1 = n
  obtain ⟨ps, hclk, -⟩ := Chan.pulses_spec none none (List.replicate n (c.eng.dataOut, c.eng.tmsLevel))
    { c with fresh := c.fresh + 1 }
  have hlen : ps.length = n := by
    obtain ⟨-, hlevels, -⟩ := hclk
    simpa using congrArg List.length hlevels
  refine ⟨ps, (Chan.pulses none none (List.replicate n (c.eng.dataOut, c.eng.tmsLevel))
    { c with fresh := c.fresh + 1 }).2, List.ne_nil_of_length_pos (by omega), ?_, by rw [hlen]; exact hclk,
    fun hd => ?_⟩
  · rw [Chan.readClocks, hn]
  · rw [Chan.pulses_target (c := { c with fresh := c.fresh + 1 }) hd (.inl (by decide)), List.map_replicate, hlen]

/-- What a pin read does (R69, R261, R263): the byte `b` it gathers and the pulses `ps` it makes. -/
structure Chan.ReadsPins (c : Chan) (val dir od b : Byte) (ps : List Pulse) (d : Chan) : Prop where
  frame : d = { c with
    pins := c.pins.tail, fresh := d.fresh, target := d.target, wire := d.wire,
    eng := { c.eng with gathered := c.eng.gathered ++ [b] } }
  pulsed : ps ≠ []
  clocked : c.Clocked none none (List.replicate ps.length (c.eng.dataOut, c.eng.tmsLevel)) d ps
  target : c.eng.drivesTap = true → d.target = c.target.replay (List.replicate ps.length c.eng.tmsLevel)
  driven : ∀ i < 8, (drivenMask val dir od).getLsbD i = true → b.getLsbD i = val.getLsbD i
  outside : ∀ i < 8, (drivenMask val dir od).getLsbD i = false → ∀ p ∈ c.pins.head?, b.getLsbD i = p.getLsbD i

theorem Chan.readPins_readsPins (val dir od : Byte) (c : Chan) :
    ∃ b ps, c.ReadsPins val dir od b ps (c.readPins val dir od) := by
  obtain ⟨hlevel, n, hrest⟩ := c.outside_eq
  obtain ⟨ps, d, hpulsed, hclocks, hclk, htarget⟩ := c.outside.2.readClocks_eq
  rw [hrest] at hclk htarget
  have hread : c.readPins val dir od = { c with
      pins := c.pins.tail, target := d.target, wire := d.wire, fresh := d.fresh,
      eng := { c.eng with gathered := c.eng.gathered ++ [pinLevels val dir od c.outside.1] } } := by
    rw [Chan.readPins, hclocks, hrest]
    rfl
  rw [hread]
  refine ⟨_, ps, rfl, hpulsed, hclk, htarget, fun i hi hdriven => ?_, fun i hi hdriven p hp => ?_⟩
  · rw [pinLevels_getLsbD _ _ _ _ hi, if_pos hdriven]
  · rw [pinLevels_getLsbD _ _ _ _ hi, if_neg (by simp [hdriven]), hlevel p hp]

/-- Settles O13: either command is the pin read of its byte. -/
theorem pinReadsGiveEveryPin : Obligations.PinReadsGiveEveryPin := by
  intro s x hx
  obtain ⟨b, ps, hexec, hread⟩ : ∃ b ps, exec x.1 s = .next { s with chan := engCmd x.1 s.chan }
      ∧ s.chan.ReadsPins x.2.1 x.2.2.1 x.2.2.2 b ps (engCmd x.1 s.chan) := by
    simp only [List.mem_cons, List.not_mem_nil, or_false] at hx
    obtain rfl | rfl := hx
    · obtain ⟨b, ps, hread⟩ := s.chan.readPins_readsPins s.chan.eng.lowVal s.chan.eng.lowDir s.chan.eng.odLow
      exact ⟨b, ps, exec_command rfl s, hread⟩
    · obtain ⟨b, ps, hread⟩ := s.chan.readPins_readsPins s.chan.eng.highVal s.chan.eng.highDir s.chan.eng.odHigh
      exact ⟨b, ps, exec_command rfl s, hread⟩
  exact ⟨_, b, ps, hexec, congrArg (fun c => { s with chan := c }) hread.frame, hread.pulsed, hread.clocked,
    hread.target, fun i hi => ⟨hread.driven i hi, hread.outside i hi⟩⟩

end Sys2Proof.Machine

/-! PROOF. Loopback (spec/48_mpsse_pin_config_opcodes.md R264; 47_mpsse_shift_opcodes.md R221; 30_encoding.md R96;
44_spi.md R168). Every sample of a run is the data-out bit of its pulse, and eight captured bits are the byte they were,
so that a shift that writes and reads gathers what it sends, and SPI.TRANSACT returns it. -/

namespace Sys2Proof.Machine

/-! ## What a response byte captures (R96) -/

/-- Bit `i` of a byte in the order of a shift stands where a whole byte's sample `i` does. -/
theorem bitsOf_getD (ord : BitOrder) (d : Byte) {i : Nat} (hi : i < 8) :
    (bitsOf ord d).getD i false = d.getLsbD (bytePos ord i) := by
  cases ord with
  | lsb => simp [bitsOf, bytePos, hi]
  | msb =>
    have hi' : i < ((List.range 8).map d.getLsbD).reverse.length := by simpa using hi
    rw [bitsOf, List.getD_eq_getElem _ _ hi']
    simp [bytePos]

/-- The first bits of a byte are those of the byte. -/
theorem bitsOf_take_getD (ord : BitOrder) (d : Byte) {i k : Nat} (hi : i < k) (hk : k ≤ 8) :
    ((bitsOf ord d).take k).getD i false = d.getLsbD (bytePos ord i) := by
  rw [← bitsOf_getD ord d (hi.trans_le hk), List.getD_eq_getElem?_getD, List.getElem?_take_of_lt hi,
    List.getD_eq_getElem?_getD]

/-- The bits of a byte, captured in their order, are the byte. -/
theorem capture_bitsOf (ord : BitOrder) (stale d : Byte) : capture ord stale (bitsOf ord d) = d := by
  obtain ⟨-, hbits⟩ := capture_bitsHold ord stale (bitsOf ord d) (bitsOf_length ord d).le
  rw [bitsOf_length] at hbits
  have hsame : ∀ i < 8, (capture ord stale (bitsOf ord d)).getLsbD (bytePos ord i) = d.getLsbD (bytePos ord i) :=
    fun i hi => by rw [← bitPos_eight, hbits i hi, bitsOf_getD ord d hi, bitPos_eight]
  refine BitVec.eq_of_getLsbD_eq fun i hi => ?_
  cases ord with
  | lsb => exact hsame i hi
  | msb => simpa [bytePos, show 7 - (7 - i) = i by omega] using hsame (7 - i) (by omega)

/-! ## What a shift samples (R221) -/

theorem Chan.SameStreams.loopback {c d : Chan} (h : c.SameStreams d) : d.eng.loopback = c.eng.loopback := by
  obtain ⟨-, -, -, -, -, -, -, -, -, -, -, -, -, -, -, -, -, -, hkept, -⟩ := h
  exact hkept

section Loopback

variable {c : Chan} (hloop : c.eng.loopback = true)
include hloop

/-- In loopback a run samples the data-out level of each of its pulses. -/
theorem Chan.pulses_loopback (w : Option Edge) (edge : Edge) (ls : List (Bool × Bool)) :
    (c.pulses w (some edge) ls).1 = ls.map Prod.fst := by
  induction ls generalizing c with
  | nil => rfl
  | cons x ls ih =>
    have hsample : (c.pulse w (some edge) x.1 x.2).1 = some x.1 := congrArg Prod.fst (c.sample_loopback edge x.1 hloop)
    obtain ⟨_, -, -, -, _, _, _, hc⟩ := c.pulse_spec w (some edge) x.1 x.2
    have hkept : (c.pulse w (some edge) x.1 x.2).2.eng.loopback = true := by rw [hc]; exact hloop
    rw [Chan.pulses, hsample, ih hkept]
    rfl

theorem Chan.dataPulses_loopback (w : Option Edge) (edge : Edge) (bits : List Bool) :
    (c.dataPulses w (some edge) bits).1 = bits := by
  rw [Chan.dataPulses, Chan.pulses_loopback hloop, List.map_map]
  exact List.map_id bits

/-! ## The shifts that write and read (R239 to R246) -/

theorem Chan.shiftBytes_loopback (ord : BitOrder) (w : Option Edge) (edge : Edge) (ds : List Byte) :
    (c.shiftBytes ord w (some edge) ds).1 = ds := by
  induction ds generalizing c with
  | nil => rfl
  | cons d ds ih =>
    have hkept := (c.dataPulses_same w (some edge) (bitsOf ord d)).loopback.trans hloop
    rw [Chan.shiftBytes, Chan.dataPulses_loopback hloop, capture_bitsOf, ih hkept]

theorem Chan.ioBytes_loopback (ord : BitOrder) (w r : Edge) (ds : List Byte) :
    ∃ ps, c.Clocks ps ds (c.ioBytes ord w r ds) := by
  obtain ⟨ps, hclocks⟩ := c.dataPulses_clocks (some w) (some r) (ds.flatMap (bitsOf ord))
  rw [← Chan.shiftBytes_dataPulses] at hclocks
  rw [Chan.ioBytes, Chan.shiftBytes_loopback hloop]
  exact ⟨ps, hclocks.gather ds⟩

theorem Chan.ioBits_loopback (ord : BitOrder) (w r : Edge) {k : Nat} (hk : 1 ≤ k ∧ k ≤ 8) (d : Byte) :
    ∃ ps stale, c.Clocks ps [capture ord stale ((bitsOf ord d).take k)] (c.ioBits ord w r k d) := by
  obtain ⟨ps, hclocks⟩ := c.dataPulses_clocks (some w) (some r) ((bitsOf ord d).take k)
  obtain ⟨stale, hgather⟩ := hclocks.gatherBits ord ((bitsOf ord d).take k)
  rw [Chan.ioBits, c.bitCount_ok hk, Chan.dataPulses_loopback hloop]
  exact ⟨ps, stale, hgather⟩

/-- A byte-oriented shift that reads gathers the bytes it sends. -/
theorem engCmd_bytesW_loopback {o : WriteOp} (ho : writeReads o ≠ none) (ds : List Byte) :
    ∃ ps, c.Clocks ps ds (engCmd (o.bytesInstr ds) c) := by
  cases o
  case outWpMsb | outWnMsb | outWpLsb | outWnLsb => exact absurd rfl ho
  case ioWnRpMsb | ioWpRnMsb | ioWnRpLsb | ioWpRnLsb => exact Chan.ioBytes_loopback hloop _ _ _ ds

/-- A bit-oriented shift that reads gathers a byte that captures the bits it sends. -/
theorem engCmd_bitsW_loopback {o : WriteOp} (ho : writeReads o ≠ none) {k : Nat} (hk : 1 ≤ k ∧ k ≤ 8) (d : Byte) :
    ∃ ps stale, c.Clocks ps [capture (writeOrder o) stale ((bitsOf (writeOrder o) d).take k)]
      (engCmd (o.bitsInstr k d) c) := by
  cases o
  case outWpMsb | outWnMsb | outWpLsb | outWnLsb => exact absurd rfl ho
  case ioWnRpMsb | ioWpRnMsb | ioWnRpLsb | ioWpRnLsb => exact Chan.ioBits_loopback hloop _ _ _ hk d

end Loopback

theorem bitsOf_take_bitsHold (ord : BitOrder) (stale d : Byte) {k : Nat} (hk : k ≤ 8) :
    BitsHold ord k ((bitsOf ord d).take k) (capture ord stale ((bitsOf ord d).take k)) := by
  have hlen : ((bitsOf ord d).take k).length = k := by rw [List.length_take, bitsOf_length, Nat.min_eq_left hk]
  have hhold := capture_bitsHold ord stale ((bitsOf ord d).take k) (hlen.trans_le hk)
  rwa [hlen] at hhold

/-- Settles O11: what either form gathers in loopback. -/
theorem loopbackReturnsWhatItSends : Obligations.LoopbackReturnsWhatItSends := by
  intro s o hloop ho
  refine ⟨fun d => ?_, fun k d h1 h8 => ?_⟩
  · obtain ⟨ps, hclocks⟩ := engCmd_bytesW_loopback hloop ho d
    exact ⟨_, exec_command (hostOp_bytesW o d) s, hclocks.gathered⟩
  · obtain ⟨ps, stale, hclocks⟩ := engCmd_bitsW_loopback hloop ho ⟨h1, h8⟩ d
    exact ⟨_, _, exec_command (hostOp_bitsW o k d) s, hclocks.gathered, bitsOf_take_bitsHold _ _ d h8⟩

/-! ## The decode of an SPI response (R57, R168) -/

theorem byteOf_take {bs : List Byte} {m j : Nat} (h : j < m) : byteOf (bs.take m) j = byteOf bs j := by
  rw [byteOf, List.getD_eq_getElem?_getD, List.getElem?_take_of_lt h, ← List.getD_eq_getElem?_getD, byteOf]

section Decode

variable {n : Nat} {whole part : List Byte} (hwhole : whole.length = spiBytes n)
  (hpart : part.length = partCount (spiBits n))
include hwhole hpart

/-- The whole bytes are kept, and the partial group moves up to the byte's top. -/
theorem spiDecode_append : spiDecode n (whole ++ part) = whole ++ part.map fun b : Byte => b <<< (8 - spiBits n) := by
  have htake : (whole ++ part).take (spiBytes n) = whole := by rw [← hwhole, List.take_left]
  unfold partCount at hpart
  simp only [spiDecode, htake]
  split
  · rename_i hnone
    rw [if_pos hnone, List.length_eq_zero_iff] at hpart
    rw [hpart, List.map_nil, List.append_nil]
  · rename_i hsome
    rw [if_neg hsome, List.length_eq_one_iff] at hpart
    obtain ⟨b, rfl⟩ := hpart
    have hbyte : byteOf (whole ++ [b]) (spiBytes n) = b := by simp [byteOf, ← hwhole]
    rw [hbyte, List.map_singleton]

theorem spiDecode_length : (spiDecode n (whole ++ part)).length = ceil8 n := by
  rw [spiDecode_append hwhole hpart, List.length_append, List.length_map, hwhole, hpart, partCount, ceil8]
  unfold spiBytes spiBits
  split <;> omega

theorem byteOf_spiDecode_whole {j : Nat} (hj : j < spiBytes n) :
    byteOf (spiDecode n (whole ++ part)) j = byteOf whole j := by
  rw [spiDecode_append hwhole hpart, byteOf, List.getD_append _ _ _ _ (by omega), byteOf]

theorem byteOf_spiDecode_part (hr : spiBits n ≠ 0) :
    byteOf (spiDecode n (whole ++ part)) (spiBytes n) = byteOf part 0 <<< (8 - spiBits n) := by
  rw [partCount, if_neg hr, List.length_eq_one_iff] at hpart
  obtain ⟨b, rfl⟩ := hpart
  rw [spiDecode_append hwhole (by rw [partCount, if_neg hr]; rfl), byteOf, List.getD_append_right _ _ _ _ hwhole.le,
    hwhole, Nat.sub_self]
  rfl

end Decode

/-- The top bits of a byte are its bits. -/
theorem topBits_getLsbD {r j : Nat} (x : Byte) (hj : j < r) (hr : r < 8) :
    (topBits r x).getLsbD (7 - j) = x.getLsbD (7 - j) := by
  have hmask : ∀ r < 8, ∀ j < r, (0xFF#8 <<< (8 - r)).getLsbD (7 - j) = true := by decide
  rw [topBits, BitVec.getLsbD_and, hmask r hr j hj, Bool.and_true]

/-- The first `r` bits of a byte, captured and moved up to its top: bit `j` is the byte's. -/
theorem captured_part_bit (stale x : Byte) {r j : Nat} (hj : j < r) (hr : r < 8) :
    (capture .msb stale ((bitsOf .msb x).take r) <<< (8 - r)).getLsbD (7 - j) = x.getLsbD (7 - j) := by
  obtain ⟨-, hbits⟩ := bitsOf_take_bitsHold .msb stale x hr.le
  have hplace : 7 - j - (8 - r) = bitPos .msb r j := by simp only [bitPos]; omega
  rw [BitVec.getLsbD_shiftLeft, decide_eq_true (by omega : 7 - j < 8), decide_eq_false (by omega : ¬7 - j < 8 - r),
    hplace, hbits j hj, bitsOf_take_getD .msb x hj hr.le]
  rfl

/-- Below the bits moved up a byte is 0. -/
theorem captured_part_clear (b : Byte) {r j : Nat} (hj : r ≤ j) (hj8 : j < 8) :
    (b <<< (8 - r)).getLsbD (7 - j) = false := by
  rw [BitVec.getLsbD_shiftLeft, decide_eq_true (by omega : 7 - j < 8 - r), Bool.not_true, Bool.and_false,
    Bool.false_and]

/-- What a loopback channel gathers from the partial group of a transfer: nothing when there is none, else a byte that
captures the group's bits. -/
structure EchoesPart (n : Nat) (out part : List Byte) : Prop where
  count : part.length = partCount (spiBits n)
  captured : spiBits n ≠ 0 → ∃ stale,
    byteOf part 0 = capture .msb stale ((bitsOf .msb (spiLastByte n out)).take (spiBits n))

theorem spiReadLen_pos {n : Nat} (hn : 1 ≤ n) : 0 < spiReadLen n := by
  unfold spiReadLen spiBytes spiBits partCount
  split <;> omega

theorem take_spiBytes_length {n : Nat} {out : List Byte} (hlen : out.length = ceil8 n) :
    (out.take (spiBytes n)).length = spiBytes n :=
  List.length_take_of_le (by rw [hlen, spiBytes, ceil8]; omega)

section Echo

variable {n : Nat} {out part : List Byte} (hlen : out.length = ceil8 n) (hpart : EchoesPart n out part)
include hlen hpart

/-- The decode of an echo holds the bits that were sent (R57). -/
theorem spiDecode_echo_bit {i : Nat} (hi : i < n) :
    (byteOf (spiDecode n (out.take (spiBytes n) ++ part)) (i / 8)).getLsbD (7 - i % 8)
      = (byteOf out (i / 8)).getLsbD (7 - i % 8) := by
  have hwhole := take_spiBytes_length hlen
  obtain ⟨hcount, hcapture⟩ := hpart
  obtain hbyte | hbyte : i / 8 < spiBytes n ∨ i / 8 = spiBytes n := by unfold spiBytes; omega
  · rw [byteOf_spiDecode_whole hwhole hcount hbyte, byteOf_take hbyte]
  · have hj : i % 8 < spiBits n := by unfold spiBytes at hbyte; unfold spiBits; omega
    have hr : spiBits n < 8 := Nat.mod_lt _ (by decide)
    obtain ⟨stale, hstale⟩ := hcapture (by omega)
    rw [hbyte, byteOf_spiDecode_part hwhole hcount (by omega), hstale, captured_part_bit _ _ hj hr]
    exact topBits_getLsbD _ hj hr

/-- The unused bits of the last byte are 0 (R57). -/
theorem spiDecode_echo_clear {i : Nat} (hlo : n ≤ i) (hhi : i < 8 * ceil8 n) :
    (byteOf (spiDecode n (out.take (spiBytes n) ++ part)) (i / 8)).getLsbD (7 - i % 8) = false := by
  have hwhole := take_spiBytes_length hlen
  obtain ⟨hcount, -⟩ := hpart
  unfold ceil8 at hhi
  have hbyte : i / 8 = spiBytes n := by unfold spiBytes; omega
  have hj : spiBits n ≤ i % 8 := by unfold spiBytes at hbyte; unfold spiBits; omega
  have hr : spiBits n ≠ 0 := by unfold spiBits; omega
  rw [hbyte, byteOf_spiDecode_part hwhole hcount hr, captured_part_clear _ hj (Nat.mod_lt _ (by decide))]

end Echo

/-! ## SPI.TRANSACT's stream at work in loopback (R70, R168) -/

section Runs

variable {input : Prop} {c : Chan} {rest : List Byte}

/-- The pin-sets of a chip-select change are executed without a sample (R165). -/
theorem Chan.runs_selectCmds {s : State} {level : Bool} (htx : c.tx = selectCmds s level ++ rest) :
    ∃ d, c.Runs input rest [] [] d := by
  rw [selectCmds] at htx
  generalize s.par.spiSettleRepeat = k at htx
  induction k generalizing c with
  | zero =>
    obtain rfl : c.tx = rest := htx
    exact ⟨c, .refl input c⟩
  | succ k ih =>
    rw [List.replicate_succ, List.flatten_cons, List.append_assoc] at htx
    obtain ⟨d, hfirst, -⟩ := Chan.runs_setLow htx
    obtain ⟨e, hrest⟩ := ih hfirst.tx
    exact ⟨e, hfirst.trans hrest⟩

variable (hloop : c.eng.loopback = true)
include hloop

theorem Chan.runs_spiBytes {o : WriteOp} (ho : writeReads o ≠ none) {ds : List Byte} (hmax : ds.length ≤ 65536)
    (htx : c.tx = cmdUnless ds.length (o.bytesInstr ds) ++ rest) : ∃ d, c.Runs False rest [] ds d := by
  unfold cmdUnless at htx
  split at htx
  · rename_i hnone
    obtain rfl := List.length_eq_zero_iff.1 hnone
    obtain rfl : c.tx = rest := htx
    exact ⟨c, .refl False c⟩
  · have hok : byteCountOk ds.length = true := by
      simp only [byteCountOk, Bool.and_eq_true, decide_eq_true_eq]
      omega
    obtain ⟨ps, hclocks⟩ := engCmd_bytesW_loopback (c := { c with tx := rest }) hloop ho ds
    exact ⟨_, hclocks.runs rfl (o.bytesInstr_readsBack hok) htx nofun⟩

theorem Chan.runs_spiBits {o : WriteOp} (ho : writeReads o ≠ none) (hmsb : writeOrder o = .msb) {n : Nat}
    {out : List Byte} (htx : c.tx = cmdUnless (spiBits n) (o.bitsInstr (spiBits n) (spiLastByte n out)) ++ rest) :
    ∃ part d, c.Runs False rest [] part d ∧ EchoesPart n out part := by
  unfold cmdUnless at htx
  split at htx
  · rename_i hnone
    obtain rfl : c.tx = rest := htx
    exact ⟨[], c, .refl False c, (if_pos hnone).symm, absurd hnone⟩
  · rename_i hsome
    have hk : 1 ≤ spiBits n ∧ spiBits n ≤ 8 := by unfold spiBits at hsome ⊢; omega
    have hok : bitCountOk (spiBits n) = true := by simp [bitCountOk, hk]
    obtain ⟨ps, stale, hclocks⟩ := engCmd_bitsW_loopback (c := { c with tx := rest }) hloop ho hk (spiLastByte n out)
    rw [hmsb] at hclocks
    exact ⟨_, _, hclocks.runs rfl (o.bitsInstr_readsBack _ hok) htx nofun, (if_neg hsome).symm, fun _ => ⟨stale, rfl⟩⟩

/-- The frame of a transfer at work: its response is what it sends. -/
theorem Chan.runs_transactCmds {s : State} {n : Nat} {out : List Byte} (hlen : out.length = ceil8 n)
    (hmax : spiBytes n ≤ 65536) (htx : c.tx = transactCmds s n out) :
    ∃ part d, c.Runs False [] [] (out.take (spiBytes n) ++ part) d ∧ EchoesPart n out part := by
  obtain ⟨ho, hmsb⟩ : writeReads (spiIoOp s.spiMode) ≠ none ∧ writeOrder (spiIoOp s.spiMode) = .msb := by
    cases s.spiMode <;> decide
  have htake : (out.take (spiBytes n)).length = n / 8 := take_spiBytes_length hlen
  simp only [transactCmds_eq, spiOutCmds, List.append_assoc] at htx
  obtain ⟨c₁, hselect⟩ := Chan.runs_selectCmds (input := False) htx
  obtain ⟨c₂, hbytes⟩ := Chan.runs_spiBytes (hselect.loopback.trans hloop) ho (htake.trans_le hmax)
    (by rw [htake]; exact hselect.tx)
  obtain ⟨part, c₃, hbits, hpart⟩ := Chan.runs_spiBits
    (hbytes.loopback.trans (hselect.loopback.trans hloop)) ho hmsb hbytes.tx
  obtain ⟨c₄, hdeselect⟩ := Chan.runs_selectCmds (input := False) hbits.tx
  obtain ⟨c₅, hsend⟩ := Chan.runs_sendImm (input := False) hdeselect.tx
  have hall := (((hselect.trans hbytes).trans hbits).trans hdeselect).trans hsend
  simp only [List.nil_append, List.append_nil] at hall
  exact ⟨part, c₅, hall, hpart⟩

end Runs

/-- A write to a quiet channel: its bytes are all of the stream. -/
theorem Chan.Quiet.sent_chan {s : State} (h : s.chan.Quiet) (bs : List Byte) :
    (s.sent bs).chan = Chan.called (.write bs) { s.chan with tx := bs } := by
  obtain ⟨hturns, htx, -⟩ := h
  rw [State.sent_chan, Chan.write_last hturns, htx, List.nil_append]

/-- Commands that the engine works through on a quiet channel with all their responses read: the channel is quiet again
(R62, R113). -/
theorem Chan.Quiet.answers_all {s : State} (h : s.chan.Quiet) {cmds rs : List Byte} {input : Prop} {bits : List Bool}
    {d : Chan} (hpos : 0 < rs.length) (hruns : (s.sent cmds).chan.Runs input [] bits rs d) :
    ∃ e : Chan, (s.sent cmds).chan.readExact rs.length = (.ok rs, e) ∧ e.Quiet := by
  have hsent := h.sent_chan cmds
  obtain ⟨hturns, -, hincoming⟩ := h
  have hsettle : (s.sent cmds).chan.settle = d := hruns.settles.trans (Chan.settle_nil hruns.tx)
  have hall : (s.sent cmds).chan.settle.incoming = rs := by
    rw [hsettle, hruns.incoming, hsent]
    exact congrArg (· ++ rs) hincoming
  have hnoturns : (s.sent cmds).chan.settle.turns = [] := by
    rw [hsettle, hruns.turns, hsent]
    exact hturns
  obtain ⟨e, hread, hquiet, -⟩ := Chan.readExact_everything hpos (congrArg List.length hall)
    (hsettle ▸ hruns.tx) hnoturns
  exact ⟨e, hall ▸ hread, hquiet⟩

/-- Settles O39: the frame is one write, and its read is the echo. -/
theorem spiLoopbackReturnsTheData : Obligations.SpiLoopbackReturnsTheData := by
  intro s n out hopen hproto hmode hn hlen hbytes hwf hquiet hloop hrep hroom
  have hmax : spiBytes n ≤ 65536 := hbytes.trans (of_decide_eq_true (Bool.and_eq_true_iff.1 hwf).1)
  have hsent := hquiet.sent_chan (transactCmds s n out)
  obtain ⟨part, d, hruns, hpart⟩ := Chan.runs_transactCmds (c := (s.sent (transactCmds s n out)).chan) (s := s)
    (by rw [hsent]; exact hloop) hlen hmax (by rw [hsent]; rfl)
  have hwhole := take_spiBytes_length hlen
  have hcount : (out.take (spiBytes n) ++ part).length = spiReadLen n := by
    rw [List.length_append, hwhole, hpart.count, spiReadLen]
  obtain ⟨e, hread, hend⟩ := hquiet.answers_all (hcount ▸ spiReadLen_pos hn) hruns
  rw [hcount] at hread
  have hexec := spiTransactFramesAndDecodes s n out _ e hopen hproto hmode hrep hn hlen hbytes
    (Chan.accepts_of_last hquiet.noTurns) hroom hread
  exact ⟨_, _, hexec, rfl, spiDecode_length hwhole hpart.count, hend, rfl, fun i hi => spiDecode_echo_bit hlen hpart hi,
    fun i hlo hhi => spiDecode_echo_clear hlen hpart hlo hhi⟩

end Sys2Proof.Machine

/-! PROOF. MPSSE.EMIT (spec/48_mpsse_pin_config_opcodes.md R276; 30_encoding.md R97; 47_mpsse_shift_opcodes.md R220;
60_exceptions.md R294, R295). Its checks in order, as equations; then one append, after which the shadows
follow SET_LOW. -/

namespace Sys2Proof.Machine

/-! ## What the checks are (R276, R298) -/

section Checks

variable {s : State} {cmd : MCmd} (hopen : s.ch = .opened)
include hopen

/-- A mnemonic outside the set. -/
theorem needEmit_unknown (op : Byte) :
    needEmit (.unknown op) s = some (.configuration, .reason .unknownCommand) := by
  rw [needEmit, needOpen_eq_none.2 hopen]
  rfl

theorem needEmit_enhanced (hkey : (cmdKey cmd).isSome = true) (hgate : cmdGate cmd = .enhanced)
    (henh : s.cap.enh = false) : needEmit cmd s = some (.configuration, .reason .needsEnhanced) := by
  rw [needEmit, needOpen_eq_none.2 hopen, hkey, hgate, henh]
  rfl

theorem needEmit_openDrain (hkey : (cmdKey cmd).isSome = true) (hgate : cmdGate cmd = .openDrain)
    (hod : s.cap.od = false) : needEmit cmd s = some (.configuration, .reason .needsOpenDrain) := by
  rw [needEmit, needOpen_eq_none.2 hopen, hkey, hgate, hod]
  rfl

/-- A command of the set behind an open gate: what is left to check is its operands. -/
theorem needEmit_gated (hkey : (cmdKey cmd).isSome = true) (hgate : s.cap.opens (cmdGate cmd) = true) :
    needEmit cmd s = sized .operand (cmdMisfit s.par cmd) := by
  rw [needEmit, needOpen_eq_none.2 hopen, hkey]
  cases hg : cmdGate cmd <;> rw [hg] at hgate
  · rfl
  · rw [show s.cap.enh = true from hgate]
    rfl
  · rw [show s.cap.od = true from hgate]
    rfl

/-- An operand out of range changes nothing but the log and the answer (R295, R296). -/
theorem exec_mpsseEmit_misfits (hkey : (cmdKey cmd).isSome = true) (hgate : s.cap.opens (cmdGate cmd) = true)
    {need available : Nat} (h : cmdMisfit s.par cmd = some (need, available)) :
    exec (.mpsseEmit cmd) s = .next (s.logged .sizing .mpsseEmit (.operand need available)) :=
  runOp_early .mpsseEmit _ _ _ s (by rw [needEmit_gated hopen hkey hgate, h]; rfl)

end Checks

/-- A count out of range is the first size that misfits, whatever is checked later. -/
theorem or_count_of_misfits {n bound need available : Nat} (h : CountMisfits n bound need available)
    (later : Option (Nat × Nat)) :
    (atLeastOne n).or ((atMost n bound).or later) = some (need, available) := by
  obtain ⟨rfl, rfl, rfl⟩ | ⟨hbound, rfl, rfl⟩ := h
  · rfl
  · rw [atLeastOne_eq_none.2 (by omega), atMost, if_pos hbound]
    rfl

theorem count_of_misfits {n bound need available : Nat} (h : CountMisfits n bound need available) :
    (atLeastOne n).or (atMost n bound) = some (need, available) := by
  simpa using or_count_of_misfits h none

/-- Settles O55: the first check that fails, command by command. -/
theorem emitRefusesInOrder : Obligations.EmitRefusesInOrder := by
  intro s hopen
  refine ⟨fun op => ?_, fun henh o ho => ?_, fun hod l h => ?_, fun need available => ⟨fun n hn => ?_, fun k hk => ?_,
    fun o m d hm => ?_⟩, fun o n d hpos hmax hlen => ?_, fun d hd => ?_⟩
  · exact runOp_early .mpsseEmit _ _ _ s (needEmit_unknown hopen op)
  · have hgate : cmdGate (.noarg o) = .enhanced := by
      simp only [List.mem_cons, List.not_mem_nil, or_false] at ho
      obtain rfl | rfl | rfl | rfl | rfl | rfl := ho <;> rfl
    exact runOp_early .mpsseEmit _ _ _ s (needEmit_enhanced hopen rfl hgate henh)
  · exact runOp_early .mpsseEmit _ _ _ s (needEmit_openDrain hopen rfl rfl hod)
  · exact ⟨fun o d => exec_mpsseEmit_misfits hopen rfl rfl (or_count_of_misfits hn _),
      fun o => exec_mpsseEmit_misfits hopen rfl rfl (count_of_misfits hn)⟩
  · exact ⟨fun o d => exec_mpsseEmit_misfits hopen rfl rfl (count_of_misfits hk),
      fun o => exec_mpsseEmit_misfits hopen rfl rfl (count_of_misfits hk)⟩
  · exact exec_mpsseEmit_misfits hopen rfl rfl (count_of_misfits hm)
  · have hmisfit : cmdMisfit s.par (.bytesW o n d) = some (n, d.length) := by
      rw [cmdMisfit, atLeastOne_eq_none.2 hpos, atMost_eq_none.2 hmax, exactly, if_neg hlen]
      rfl
    exact exec_mpsseEmit_misfits hopen rfl rfl hmisfit
  · exact exec_mpsseEmit_misfits hopen rfl rfl (if_pos hd)

/-! ## The shadows (R29) -/

/-- SET_LOW has one name at the host. -/
theorem MCmd.eq_setLow {cmd : MCmd} {v d : Byte} (h : cmd.instr = some (.setLow v d)) : cmd = .pset .low v d := by
  cases cmd
  case pset o v' d' => cases o <;> cases h; rfl
  case bytesW o n ds | bytesR o n | bitsW o k b | bitsR o k | tms o m b | noarg o => cases o <;> cases h
  all_goals cases h

/-- The shadows are all that can change after the append. -/
theorem State.shadow_eq (s : State) (cmd : MCmd) :
    s.shadow cmd = { s with plVal := (s.shadow cmd).plVal, plDir := (s.shadow cmd).plDir } := by
  cases cmd
  case pset o v d => cases o <;> rfl
  all_goals rfl

theorem State.shadow_other (s : State) {cmd : MCmd} (h : ∀ v d, cmd ≠ .pset .low v d) : s.shadow cmd = s := by
  cases cmd
  case pset o v d =>
    cases o
    · exact absurd rfl (h v d)
    · rfl
  all_goals rfl

/-! ## A command accepted (R276, R220) -/

theorem cmdKey_isSome {cmd : MCmd} {i : Instr} (h : cmd.instr = some i) : (cmdKey cmd).isSome = true := by
  cases cmd
  case unknown op => cases h
  all_goals rfl

theorem cmdBytes_eq {cmd : MCmd} {i : Instr} (h : cmd.instr = some i) : cmdBytes cmd = encodeCmd i := by
  rw [cmdBytes, h]

/-- Settles O54: one append with the shadows after it, or the overflow of that append. -/
theorem emitAppendsOneCommand : Obligations.EmitAppendsOneCommand := by
  intro s cmd i hopen hinstr hfits hgate
  have hpre : needEmit cmd s = none := by
    rw [needEmit_gated hopen (cmdKey_isSome hinstr) hgate, hfits]
    rfl
  refine ⟨fun hroom => ?_, fun hover => ?_⟩
  · have hbody : mpsseEmit cmd s = .ok () ((s.append (encodeCmd i)).shadow cmd) := by
      rw [mpsseEmit, cmdBytes_eq hinstr, emit_ok _ s hroom, Res.ok_bind]
    refine ⟨_, runOp_ok .mpsseEmit _ _ (fun _ => .done) s hpre hbody,
      congrArg (State.answering · .done) ((s.append (encodeCmd i)).shadow_eq cmd), ?_, fun hother => ?_⟩
    · rintro v d rfl
      rw [MCmd.eq_setLow hinstr]
      exact ⟨rfl, rfl⟩
    · have hnot : ∀ v d, cmd ≠ .pset .low v d := by
        rintro v d rfl
        exact hother v d (Option.some.inj hinstr).symm
      rw [State.shadow_other _ hnot]
      exact ⟨rfl, rfl⟩
  · have hbody : mpsseEmit cmd s = .raised .sizing (s.overflow (encodeCmd i)) s := by
      rw [mpsseEmit, cmdBytes_eq hinstr, emit, if_neg (by rw [State.fits_iff]; omega), Res.raised_bind]
    have hexec : exec (.mpsseEmit cmd) s = _ := runOp_raised .mpsseEmit _ _ (fun _ => .done) s hpre hbody
    rw [hexec]
    simp [faultLate, opIsOpen, State.logged, State.overflow, State.queueFree]

end Sys2Proof.Machine

/-! PROOF. The channel-state table (spec/60_exceptions.md R293). Each requirement of the table is a check of the model that
fails with the table's reason; that check comes first in every operation that has the requirement, so a refusal is fault
entry at the checks, before any transport call. -/

namespace Sys2Proof.Machine

section Requirements

variable {s : State} {r : CfgReason}

/-! ## The requirements as checks -/

/-- The first check that fails is the fault (R298). -/
theorem orElse_eq_some_of_left {a b : Option (FaultCode × Detail)} {f : FaultCode × Detail} (h : a = some f) :
    orElse a b = some f := by rw [h, orElse_some]

theorem needClosed_of_refuses (h : Need.closed.refuses s = some r) :
    needClosed s = some (.configuration, .reason r) := by
  by_cases hc : s.ch = .closed <;> simp [Need.refuses, hc] at h
  simp [needClosed, hc, h]

theorem needNotClosed_of_refuses (h : Need.notClosed.refuses s = some r) :
    needNotClosed s = some (.configuration, .reason r) := by
  by_cases hc : s.ch = .closed <;> simp [Need.refuses, hc] at h
  simp [needNotClosed, hc, h]

theorem needOpen_of_refuses (h : Need.opened.refuses s = some r) :
    needOpen s = some (.configuration, .reason r) := by
  by_cases hc : s.ch = .opened <;> simp [Need.refuses, hc] at h
  simp [needOpen, hc, h]

/-- The channel is checked before the protocol. -/
theorem needProto_of_refuses {p : Proto} (h : (Need.proto p).refuses s = some r) :
    needProto p s = some (.configuration, .reason r) := by
  by_cases hc : s.ch = .opened
  · by_cases hp : s.proto = p <;> simp [Need.refuses, hc, hp] at h
    simp [needProto, needOpen, hc, hp, h]
  · have hopen : Need.opened.refuses s = some r := by simpa [Need.refuses, hc] using h
    exact orElse_eq_some_of_left (needOpen_of_refuses hopen)

/-- An open that the table refuses asks no capability query (R206). -/
theorem runOpen_refused {α : Type} (op : HostOp) (pre : State → Option (FaultCode × Detail)) (body : State → Res α)
    (give : α → Answer) (h : Need.closed.refuses s = some r) :
    runOpen op pre body give s = .next (s.logged .configuration op (.reason r)) := by
  simp [runOpen, needClosed_of_refuses h, takeFault, faultEarly, State.logged]

end Requirements

/-! ## The table, row by row -/

/-- Settles O56: the first check of each operation is the requirement of its row. -/
theorem channelStateCheck : Obligations.ChannelStateCheck := by
  intro i op s r hop h
  cases i <;> cases hop
  case tapNext | tapPath => cases h
  case jtagOpen | spiOpen | i2cOpen => exact runOpen_refused _ _ _ _ h
  case close => exact runOp_early _ _ _ _ s (needNotClosed_of_refuses h)
  case qFlush | qRead | qCount | clkConfigure | mpsseSync => exact runOp_early _ _ _ _ s (needOpen_of_refuses h)
  case qEnq | qEnqs | mpsseEmit => exact runOp_early _ _ _ _ s (orElse_eq_some_of_left (needOpen_of_refuses h))
  case jtagReset | spiAssert | spiClear | i2cStart | i2cRstart | i2cStop | i2cWriteByte | i2cReadByte =>
    exact runOp_early _ _ _ _ s (needProto_of_refuses h)
  case tapGoto | jtagScanIr | jtagScanDr | spiTransact | spiWrite | spiRead | i2cXread | i2cXwrite =>
    exact runOp_early _ _ _ _ s (orElse_eq_some_of_left (needProto_of_refuses h))
  case jtagSetEndIr t =>
    show execJtagSetEndIr t s = _
    exact runOp_early _ _ _ _ s (orElse_eq_some_of_left (needProto_of_refuses h))
  case jtagSetEndDr t =>
    show execJtagSetEndDr t s = _
    exact runOp_early _ _ _ _ s (orElse_eq_some_of_left (needProto_of_refuses h))

end Sys2Proof.Machine
